-- ==== Sys2Proof/Word.lean ====
section
/-! DEFINITION. The word types of the protocol-engine core (spec 00_scope.md rule R11). -/

namespace Sys2Proof

/-- A `u16`: addresses, frame words, the checksum register. -/
abbrev Word := BitVec 16

/-- A `u8`: frame bytes on the receive side, the reserve byte, record bytes. -/
abbrev Byte := BitVec 8

end Sys2Proof
end

