-- ==== Sys2Proof/Config.lean ====
section
/-! DEFINITION. The implementation parameters of spec 00_scope.md rules R7 and R8, and the free
values the spec leaves unspecified (93_implementation_defined.md U2, U3). -/

namespace Sys2Proof.Config

/-! Parameters whose value the source fixes (rule R7). -/

/-- `CRC_POLY`: the generator polynomial without its x^16 term. -/
abbrev crcPoly : Word := 0x8005#16
/-- `CRC_INIT`: the initial checksum register. -/
abbrev crcInit : Word := 0xFFFF#16
/-- `TERM_WORD`: the terminator (sentinel) as a word. -/
abbrev termWord : Word := 0xFFFF#16
/-- `TERM_BYTE`: the terminator (sentinel) as a byte on the receive path. -/
abbrev termByte : Byte := 0xFF#8
/-- `STUFF_RUN`: the run length after which a complementary bit is inserted or removed. -/
abbrev stuffRun : Nat := 5
/-- `MAX_PAYLOAD_SIZE`, in bytes. -/
abbrev maxPayloadSize : Nat := 16
/-- `FLIP_MASK`: the header bit the collision rule toggles. -/
abbrev flipMask : Word := 0x8000#16

/-! Parameters the spec values by a decision (rule R8; log 11). -/

/-- `MAX_PACKET_LEN_WORDS` (decision D5). -/
abbrev maxPacketLenWords : Nat := 12
/-- `MAX_STUFFED_PACKET_LEN_WORDS`: `MAX_PACKET_LEN * 1.5`, that is 18 (decision D6). -/
abbrev maxStuffedPacketLenWords : Nat := maxPacketLenWords * 3 / 2
/-- `MAX_STUFFED_PACKET_LEN_BYTES`: 36. -/
abbrev maxStuffedPacketLenBytes : Nat := 2 * maxStuffedPacketLenWords
/-- `STUFF_INIT_LAST`: the initial `LAST_BIT` of stuffer and unstuffer, `NONE` (decision D8). -/
abbrev stuffInitLast : Option Bool := none
/-- `COUNTER_BITS` (decision D15). -/
abbrev counterBits : Nat := 32
/-- `COUNT_OVERRUN_AS_MISSED` (decision D16). -/
abbrev countOverrunAsMissed : Bool := false

/-! Free arguments of the model (rules R8, R36; U2): no body, so that nothing can be proved of
their values. Log 1. -/

/-- `SELF_ADDR_RESET`. -/
opaque selfAddrReset : Word
/-- `PEER_ADDR_RESET`. -/
opaque peerAddrReset : Word
/-- `BCAST_ADDR_RESET`. -/
opaque bcastAddrReset : Word
/-- `RESERVE_RESET`. -/
opaque reserveReset : Byte

/-! Unspecified buffer contents (rules R25 to R28, R36; U3 "any value"): what an element that no
operation has written since the latest reset reads as, by the number of resets and the index.
Log 2. -/

/-- An unwritten element of `TXU`. -/
opaque txuUnspecified : Nat → Nat → Word
/-- An unwritten element of `TXS`. -/
opaque txsUnspecified : Nat → Nat → Word
/-- An unwritten element of `RXS`. -/
opaque rxsUnspecified : Nat → Nat → Byte
/-- An unwritten element of `RXU`. -/
opaque rxuUnspecified : Nat → Nat → Byte

end Sys2Proof.Config

namespace Sys2Proof

/-- An event counter, `COUNTER_BITS` wide (spec 10_state.md rule R24). -/
abbrev Counter := BitVec Config.counterBits

end Sys2Proof
end

