-- ==== Sys2Proof/Machine/Bits.lean ====
section
/-! DEFINITION. Byte order and bit order (spec 20_memory.md rules R39 to R41): big-endian wherever a
word meets bytes, most-significant bit first wherever a word or a byte meets a bit stream. -/

namespace Sys2Proof

/-- `hi(w) = w[15:8]` (rule R11). -/
def hi (w : Word) : Byte := w.extractLsb' 8 8

/-- `lo(w) = w[7:0]` (rule R11). -/
def lo (w : Word) : Byte := w.extractLsb' 0 8

/-- `cat(h, l) = (h << 8) OR l` (rule R11). -/
def cat (h l : Byte) : Word := h ++ l

/-- The two bytes of a word, high byte first (rule R39). -/
def wordBytes (w : Word) : List Byte := [hi w, lo w]

/-- The byte stream of a list of words (rules R39, R41). -/
def wordsToBytes (ws : List Word) : List Byte := ws.flatMap wordBytes

/-- The words a byte stream carries, each high byte first; an odd last byte is in no word
(rules R39, R59). -/
def wordsOfBytes : List Byte → List Word
  | h :: l :: rest => cat h l :: wordsOfBytes rest
  | [_] => []
  | [] => []

/-- The bits of a word, bit 15 first (rule R40). -/
def wordBits (w : Word) : List Bool := (List.range 16).map w.getMsbD

/-- The bits of a byte, bit 7 first (rule R40). -/
def byteBits (b : Byte) : List Bool := (List.range 8).map b.getMsbD

/-- A bit string read as a number, most-significant bit first. -/
def bitsToNat (bits : List Bool) : Nat := bits.foldl (fun n b => 2 * n + b.toNat) 0

/-- The first `n` bits of a string, completed with zeros. -/
def firstBits (n : Nat) (bits : List Bool) : List Bool :=
  (List.range n).map (fun k => bits.getD k false)

/-- The word at word index `k` of a bit stream: stream bit `j` lives in word `j div 16` at bit
position `15 - (j mod 16)`; bits nobody emitted are 0 (rules R40, R94 `put`). -/
def streamWord (bits : List Bool) (k : Nat) : Word :=
  BitVec.ofNat 16 (bitsToNat (firstBits 16 (bits.drop (16 * k))))

/-- The byte at byte index `k` of a bit stream: stream bit `j` lives in byte `j div 8` at bit
position `7 - (j mod 8)`; bits nobody emitted are 0 (rules R40, R105 `put`). -/
def streamByte (bits : List Bool) (k : Nat) : Byte :=
  BitVec.ofNat 8 (bitsToNat (firstBits 8 (bits.drop (8 * k))))

/-- A bit stream packed into `n` words. -/
def packWords (n : Nat) (bits : List Bool) : List Word := (List.range n).map (streamWord bits)

/-- A bit stream packed into `n` bytes. -/
def packBytes (n : Nat) (bits : List Bool) : List Byte := (List.range n).map (streamByte bits)

end Sys2Proof
end

