-- ==== Sys2Proof/Syntax.lean ====
section
/-! DEFINITION. The operations of the core (spec 00_scope.md rule R9, 30_encoding.md rules R67 to
R76), one constructor for each row of spec/opcode_table.json, and the inputs the agents hand over. -/

namespace Sys2Proof

/-- Who issues an operation (spec 60_exceptions.md rule R159): the producer issues class `00`, the
transport adapter class `01`; class `10` is "direct invocation (test)" in the opcode table. -/
inductive Agent where
  | producer
  | transport
  | direct
deriving DecidableEq, Repr

/-- The selector operand of `SEND` (spec 30_encoding.md rule R69). -/
inductive Dest where
  | peer
  | broadcast
deriving DecidableEq, Repr

/-- The registers `RD` names, in the order of their numbers 0 to 7 (spec 10_state.md rule R18). -/
inductive RegName where
  | selfAddr
  | peerAddr
  | bcastAddr
  | reserve
  | status
  | sent
  | received
  | missed
deriving DecidableEq, Repr

/-- The five kinds of word of an UnstuffedFrame (spec 30_encoding.md rule R56). A frame word says
what it is by its place in the frame, not by its bits. -/
inductive FrameRole where
  | address
  | header
  | payload
  | checksum
  | terminator
deriving DecidableEq, Repr

/-- The rows of spec/opcode_table.json: sixteen operations, five ranges of reserved operation bytes,
five frame-word formats. -/
inductive Instr where
  /-- `RESET` (R125). -/
  | reset
  /-- `CFG_SELF v` (R126). -/
  | cfgSelf (v : Word)
  /-- `CFG_PEER v` (R127). -/
  | cfgPeer (v : Word)
  /-- `CFG_BCAST v` (R128). -/
  | cfgBcast (v : Word)
  /-- `CFG_RESERVE v` (R129). -/
  | cfgReserve (v : Byte)
  /-- `SEND sel, [p0 .. p(L-1)]` (R131). -/
  | send (sel : Dest) (p : List Byte)
  /-- `RD reg` (R134). -/
  | rd (reg : RegName)
  /-- `EV_TX_COMPLETE` (R135). -/
  | evTxComplete
  /-- `EV_FRAME_BOUNDARY img` (R137). -/
  | evFrameBoundary (img : List Byte)
  /-- `EV_RX_OVERRUN` (R139). -/
  | evRxOverrun
  /-- `CRC16_UPDATE byte, reg` (R78). -/
  | crc16Update (byte : Byte) (reg : Word)
  /-- `CRC16 [b0 .. b(n-1)]` (R80). -/
  | crc16 (bs : List Byte)
  /-- `ENCODE dest, reserve, [p0 .. p(L-1)]` (R84). -/
  | encode (dest : Word) (reserve : Byte) (p : List Byte)
  /-- `STUFF [w0 .. w(n-1)]` (R94). -/
  | stuff (ws : List Word)
  /-- `UNSTUFF [b0 .. b(n-1)]` (R105). -/
  | unstuff (bs : List Byte)
  /-- `VALIDATE self, bc, [b0 .. b(n-1)]` (R116). -/
  | validate (self bc : Word) (bs : List Byte)
  /-- Operation byte `0x07` (R73). -/
  | reserved07
  /-- Operation bytes `0x0B` to `0x0F`: class `01`, index 3 to 7 (R73). -/
  | reserved0B0F (index : BitVec 3)
  /-- Operation bytes `0x16`, `0x17`: class `10`, index 6 or 7, of which the low bit is kept (R73). -/
  | reserved1617 (low : BitVec 1)
  /-- Operation bytes `0x18` to `0x1F`: class `11` (R73). -/
  | reservedClass11 (index : BitVec 3)
  /-- Operation bytes `0x20` to `0xFF`: bits 7:5 not `000` (R73). -/
  | reservedHighBits (op : Byte)
  /-- `address_word` (R57). -/
  | wAddress (a : Word)
  /-- `header_word`: mutation bit, `reserve[6:0]`, payload length (R58). -/
  | wHeader (m : BitVec 1) (r : BitVec 7) (len : Byte)
  /-- A payload word: `p[2k]` high, `p[2k+1]` low (R59). -/
  | wPayload (h l : Byte)
  /-- `checksum_word` (R60). -/
  | wChecksum (c : Word)
  /-- `terminator_word`, `0xFFFF` (R60). -/
  | wTerminator
deriving DecidableEq, Repr

/-- What stands in front of the core: the bytes an agent has handed over as operation records
(R67), or a bare frame word offered in the place of an operation, which the core refuses (log 9). -/
inductive Input where
  | record (agent : Agent) (bytes : List Byte)
  | frameWord (role : FrameRole) (w : Word)
deriving DecidableEq, Repr

/-- The pseudo-operations (spec 30_encoding.md rule R76). -/
inductive Pseudo where
  | waitIdle
  | sendBlocking (sel : Dest) (p : List Byte)
  | cfgIdentity (self peer bcast : Word)
deriving DecidableEq, Repr

end Sys2Proof
end

