-- ==== Sys2Proof/WellFormed.lean ====
section
/-! DEFINITION. Which terms of `Instr` an encoding of spec 30_encoding.md can express. A payload of
odd length or of more than 16 bytes is encodable (rule R73) and so well-formed; it violates the
contract when it is executed. -/

namespace Sys2Proof

/-- A list's length fits the record's one-byte count. -/
abbrev countFits (n : Nat) : Bool := decide (n ≤ 255)

/-- The operands fit the fields of the row's encoding. -/
def Instr.wellFormed : Instr → Bool
  | .reset => true
  | .cfgSelf _ => true
  | .cfgPeer _ => true
  | .cfgBcast _ => true
  | .cfgReserve _ => true
  | .send _ p => countFits p.length
  | .rd _ => true
  | .evTxComplete => true
  | .evFrameBoundary img => img.length == 36
  | .evRxOverrun => true
  | .crc16Update _ _ => true
  | .crc16 bs => countFits bs.length
  | .encode _ _ p => countFits p.length
  | .stuff ws => countFits ws.length
  | .unstuff bs => countFits bs.length
  | .validate _ _ bs => countFits bs.length
  | .reserved07 => true
  | .reserved0B0F index => decide (3 ≤ index.toNat)
  | .reserved1617 _ => true
  | .reservedClass11 _ => true
  | .reservedHighBits op => decide (0x20 ≤ op.toNat)
  | .wAddress _ => true
  | .wHeader _ _ _ => true
  | .wPayload _ _ => true
  | .wChecksum c => c != 0xFFFF#16
  | .wTerminator => true

end Sys2Proof
end

