-- ==== Sys2Proof/Decode.lean ====
section
/-! DEFINITION. Operation records and frame words (spec 30_encoding.md rules R56 to R60, R67 to R73):
the decoder, total on any bytes and rejecting by name, and after it the encoder. -/

namespace Sys2Proof

/-- Why bytes are no operation record (rule R73). -/
inductive DecodeError where
  /-- Shorter than the operation byte and the length operand require. -/
  | truncated
  /-- `SEND` with `sel >= 0x02`. -/
  | reservedSelector (sel : Byte)
  /-- `RD` with `reg >= 8`. -/
  | reservedRegister (reg : Byte)
deriving DecidableEq, Repr

/-- What a decoder answers: the instruction and the bytes after its record. -/
abbrev Decoded := Except DecodeError (Instr × List Byte)

/-- Exactly `n` operand bytes, and the bytes after them. -/
def takeBytes (n : Nat) (bs : List Byte) : Except DecodeError (List Byte × List Byte) :=
  if (bs.take n).length = n then .ok (bs.take n, bs.drop n) else .error .truncated

/-- The selector of `SEND` (rule R69). -/
def decodeSelector (sel : Byte) : Except DecodeError Dest :=
  match sel.toNat with
  | 0 => .ok .peer
  | 1 => .ok .broadcast
  | _ => .error (.reservedSelector sel)

/-- The register number of `RD` (spec 10_state.md rule R18). -/
def decodeRegister (reg : Byte) : Except DecodeError RegName :=
  match reg.toNat with
  | 0 => .ok .selfAddr
  | 1 => .ok .peerAddr
  | 2 => .ok .bcastAddr
  | 3 => .ok .reserve
  | 4 => .ok .status
  | 5 => .ok .sent
  | 6 => .ok .received
  | 7 => .ok .missed
  | _ => .error (.reservedRegister reg)

/-- A record with no operand bytes. -/
def decodeBare (i : Instr) (bs : List Byte) : Decoded := .ok (i, bs)

/-- A record with one 16-bit operand, high byte first. -/
def decodeWordOperand (f : Word → Instr) : List Byte → Decoded
  | h :: l :: rest => .ok (f (cat h l), rest)
  | _ => .error .truncated

/-- A record with one 8-bit operand. -/
def decodeByteOperand (f : Byte → Instr) : List Byte → Decoded
  | v :: rest => .ok (f v, rest)
  | _ => .error .truncated

/-- A record with a one-byte count and that many bytes (`scale` bytes for each element). -/
def decodeCounted (scale : Nat) (f : List Byte → Instr) : List Byte → Decoded
  | n :: rest => (takeBytes (scale * n.toNat) rest).map (fun (p, tail) => (f p, tail))
  | _ => .error .truncated

/-- `SEND sel len p[0] .. p[len-1]` (rule R69). DESIGN CHOICE: a record that has a reserved selector
and is also cut short is reported by its selector; rule R73 refuses both and gives no order (log 17). -/
def decodeSend : List Byte → Decoded
  | sel :: rest =>
    match decodeSelector sel with
    | .ok d => decodeCounted 1 (Instr.send d) rest
    | .error e => .error e
  | _ => .error .truncated

/-- `RD reg` (rule R69). -/
def decodeRd : List Byte → Decoded
  | reg :: rest => (decodeRegister reg).map (fun r => (Instr.rd r, rest))
  | _ => .error .truncated

/-- `EV_FRAME_BOUNDARY img[0] .. img[35]` (rule R70). -/
def decodeFrameBoundary (bs : List Byte) : Decoded :=
  (takeBytes 36 bs).map (fun (img, tail) => (Instr.evFrameBoundary img, tail))

/-- `CRC16_UPDATE byte reg_hi reg_lo` (rule R71). -/
def decodeCrcUpdate : List Byte → Decoded
  | b :: rest => decodeWordOperand (Instr.crc16Update b) rest
  | _ => .error .truncated

/-- `ENCODE dest_hi dest_lo reserve len p[0] .. p[len-1]` (rule R71). -/
def decodeEncode : List Byte → Decoded
  | dh :: dl :: r :: rest => decodeCounted 1 (Instr.encode (cat dh dl) r) rest
  | _ => .error .truncated

/-- `VALIDATE self_hi self_lo bc_hi bc_lo n b[0] .. b[n-1]` (rule R71). -/
def decodeValidate : List Byte → Decoded
  | sh :: sl :: bh :: bl :: rest => decodeCounted 1 (Instr.validate (cat sh sl) (cat bh bl)) rest
  | _ => .error .truncated

/-- Class `00`, producer commands (rule R68). -/
def decodeCommand (index : Nat) (bs : List Byte) : Decoded :=
  match index with
  | 0 => decodeBare .reset bs
  | 1 => decodeWordOperand .cfgSelf bs
  | 2 => decodeWordOperand .cfgPeer bs
  | 3 => decodeWordOperand .cfgBcast bs
  | 4 => decodeByteOperand .cfgReserve bs
  | 5 => decodeSend bs
  | 6 => decodeRd bs
  | _ => decodeBare .reserved07 bs

/-- Class `01`, transport events (rule R68); indices 3 to 7 are reserved (rule R73). -/
def decodeEvent (index : Nat) (bs : List Byte) : Decoded :=
  match index with
  | 0 => decodeBare .evTxComplete bs
  | 1 => decodeFrameBoundary bs
  | 2 => decodeBare .evRxOverrun bs
  | n => decodeBare (.reserved0B0F (BitVec.ofNat 3 n)) bs

/-- Class `10`, datapath micro-operations (rule R68); indices 6 and 7 are reserved (rule R73). -/
def decodeMicro (index : Nat) (bs : List Byte) : Decoded :=
  match index with
  | 0 => decodeCrcUpdate bs
  | 1 => decodeCounted 1 .crc16 bs
  | 2 => decodeEncode bs
  | 3 => decodeCounted 2 (fun p => .stuff (wordsOfBytes p)) bs
  | 4 => decodeCounted 1 .unstuff bs
  | 5 => decodeValidate bs
  | n => decodeBare (.reserved1617 (BitVec.ofNat 1 n)) bs

/-- The operation byte: bits 7:5 must be `000`, bits 4:3 are the class, bits 2:0 the index
(rule R67). -/
def decodeOp (op : Byte) (bs : List Byte) : Decoded :=
  if op.extractLsb' 5 3 = 0#3 then
    let index := (op.extractLsb' 0 3).toNat
    match (op.extractLsb' 3 2).toNat with
    | 0 => decodeCommand index bs
    | 1 => decodeEvent index bs
    | 2 => decodeMicro index bs
    | _ => decodeBare (.reservedClass11 (BitVec.ofNat 3 index)) bs
  else decodeBare (.reservedHighBits op) bs

/-- The first operation record of a byte string, and the bytes after it (rules R67 to R73). -/
def decode : List Byte → Decoded
  | op :: bs => decodeOp op bs
  | [] => .error .truncated

/-- A frame word read by its place in the frame (rules R56 to R60): a `checksum_word` is never
`0xFFFF` and a `terminator_word` is nothing else. -/
def decodeFrameWord (role : FrameRole) (w : Word) : Option Instr :=
  match role with
  | .address => some (.wAddress w)
  | .header => some (.wHeader (w.extractLsb' 15 1) (w.extractLsb' 8 7) (lo w))
  | .payload => some (.wPayload (hi w) (lo w))
  | .checksum => if w = Config.termWord then none else some (.wChecksum w)
  | .terminator => if w = Config.termWord then some .wTerminator else none

/-! The encoder. -/

/-- The number of a register (spec 10_state.md rule R18). -/
def RegName.number : RegName → Byte
  | .selfAddr => 0#8
  | .peerAddr => 1#8
  | .bcastAddr => 2#8
  | .reserve => 3#8
  | .status => 4#8
  | .sent => 5#8
  | .received => 6#8
  | .missed => 7#8

/-- The number of a selector (rule R69). -/
def Dest.number : Dest → Byte
  | .peer => 0#8
  | .broadcast => 1#8

/-- A one-byte count. -/
def countByte (n : Nat) : Byte := BitVec.ofNat 8 n

/-- The place in the frame and the word of a frame-word row; nothing for an operation
(rules R57 to R60). -/
def Instr.frameWord : Instr → Option (FrameRole × Word)
  | .wAddress a => some (.address, a)
  | .wHeader m r len => some (.header, m ++ r ++ len)
  | .wPayload h l => some (.payload, cat h l)
  | .wChecksum c => some (.checksum, c)
  | .wTerminator => some (.terminator, Config.termWord)
  | _ => none

/-- The record of a well-formed operation (rule R68); for a frame-word row, the word's two bytes,
high byte first (rule R39). -/
def encode : Instr → List Byte
  | .reset => [0x00#8]
  | .cfgSelf v => 0x01#8 :: wordBytes v
  | .cfgPeer v => 0x02#8 :: wordBytes v
  | .cfgBcast v => 0x03#8 :: wordBytes v
  | .cfgReserve v => [0x04#8, v]
  | .send sel p => 0x05#8 :: sel.number :: countByte p.length :: p
  | .rd reg => [0x06#8, reg.number]
  | .evTxComplete => [0x08#8]
  | .evFrameBoundary img => 0x09#8 :: img
  | .evRxOverrun => [0x0A#8]
  | .crc16Update b reg => 0x10#8 :: b :: wordBytes reg
  | .crc16 bs => 0x11#8 :: countByte bs.length :: bs
  | .encode dest r p => 0x12#8 :: (wordBytes dest ++ r :: countByte p.length :: p)
  | .stuff ws => 0x13#8 :: countByte ws.length :: wordsToBytes ws
  | .unstuff bs => 0x14#8 :: countByte bs.length :: bs
  | .validate self bc bs => 0x15#8 :: (wordBytes self ++ wordBytes bc ++ countByte bs.length :: bs)
  | .reserved07 => [0x07#8]
  | .reserved0B0F index => [0b00001#5 ++ index]
  | .reserved1617 low => [0b0001011#7 ++ low]
  | .reservedClass11 index => [0b00011#5 ++ index]
  | .reservedHighBits op => [op]
  | .wAddress a => wordBytes a
  | .wHeader m r len => wordBytes (m ++ r ++ len)
  | .wPayload h l => [h, l]
  | .wChecksum c => wordBytes c
  | .wTerminator => wordBytes Config.termWord

/-! The opcode table's own numbering of an instruction's bits. -/

/-- The longest record: `STUFF` with 255 words. -/
def longestRecord : Nat := 512

/-- The `n` lowest bytes of a number, lowest first. -/
def lowBytes : Nat → Nat → List Byte
  | 0, _ => []
  | n + 1, w => BitVec.ofNat 8 w :: lowBytes n (w / 256)

/-- The bytes of a table word in the order in which they are stored: byte `k` is bits
`8k+7 .. 8k`; bits above `nbits` are 0. -/
def tableBytes (nbits w : Nat) : List Byte := lowBytes longestRecord (w % 2 ^ nbits)

/-- The place in the frame of a word given alone: the terminator is the one word that names itself,
any other is taken as the first word of a frame (log 9). -/
def loneRole (w : Word) : FrameRole := if w = Config.termWord then .terminator else .address

/-- The instruction the decoder reads from the bits of an opcode-table row: the table gives its
frame-word rows 16 bits and its operation rows 8. -/
def decodeTableWord (nbits w : Nat) : Option Instr :=
  if nbits = 16 then decodeFrameWord (loneRole (BitVec.ofNat 16 w)) (BitVec.ofNat 16 w)
  else
    match decode (tableBytes nbits w) with
    | .ok (i, _) => some i
    | .error _ => none

end Sys2Proof
end

