-- ==== Sys2Proof/Machine/State.lean ====
section
/-! DEFINITION. The state of the core (spec 10_state.md rule R13), the outputs, results and stops,
and the state after reset (rule R36, spec 70_reset_and_hazards.md rule R165). -/

namespace Sys2Proof.Machine

/-- Why the machine stops with a fault. -/
inductive Fault where
  /-- Raised by `SEND` while not busy and by `ENCODE` when the payload length `len` is odd or
  greater than 16 (41_frame_encode.md rule R91, 45_session_ops.md rule R133): the source calls the
  behaviour undefined. Safe: the machine stops where the hardware may do anything. -/
  | contractViolation (len : Nat)
deriving DecidableEq, Repr

/-- Why an input is given no meaning. All are safe: the spec says that the core performs no
operation and changes no state (30_encoding.md rule R73, 60_exceptions.md rule R159). -/
inductive Refusal where
  /-- An arm of `exec` without a meaning. No arm raises it. Safe. -/
  | notModelled (mnemonic : String)
  /-- Raised by the five rows of reserved operation bytes (rule R73). Safe. -/
  | reservedOperation (op : Byte)
  /-- Raised by the fetch: `SEND` with `sel >= 0x02` (rule R73). Safe. -/
  | reservedSelector (sel : Byte)
  /-- Raised by the fetch: `RD` with `reg >= 8` (rule R73). Safe. -/
  | reservedRegister (reg : Byte)
  /-- Raised by the fetch: a record shorter than its operation byte and length operand require
  (rule R73). Safe. -/
  | truncatedRecord
  /-- Raised by the fetch: an operation of another agent's class (rule R159). Safe. -/
  | wrongAgent (agent : Agent)
  /-- Raised by the five frame-word rows: a frame word is no operation (rules R9, R55). Safe. -/
  | frameWordIsNoOperation (role : FrameRole)
  /-- Raised by the fetch: a bare word that its place in the frame does not admit (rule R60). Safe. -/
  | notAFrameWord (role : FrameRole) (w : Word)
deriving DecidableEq, Repr

/-- The result of `VALIDATE` (44_frame_validate.md rules R116, R117). -/
inductive Verdict where
  | accept
  | invalidAddress
  | invalidLength
  | checksumMismatch
deriving DecidableEq, Repr

/-- What the latest operation returned (00_scope.md rule R12, 30_encoding.md rule R68). -/
inductive Result where
  /-- Nothing is returned. -/
  | nothing
  /-- `SEND -> Ok`. -/
  | ok
  /-- `SEND -> Busy`. -/
  | busy
  /-- `RD -> u32`. -/
  | u32 (v : BitVec 32)
  /-- `CRC16_UPDATE`, `CRC16 -> u16`. -/
  | u16 (v : Word)
  /-- `ENCODE` -> word list. -/
  | frame (ws : List Word)
  /-- `STUFF -> S[0..m), m`. -/
  | stuffed (ws : List Word) (m : Nat)
  /-- `UNSTUFF -> R[0..36), n`. -/
  | unstuffed (bytes : List Byte) (n : Nat)
  /-- `VALIDATE` -> result code. -/
  | verdict (v : Verdict)
deriving DecidableEq, Repr

/-- The three outputs to the transport adapter (45_session_ops.md rule R140). -/
inductive Output where
  | beginTransmit (words : List Word) (m : Nat)
  | txCursorReset
  | rearmReceive
deriving DecidableEq, Repr

/-- The receive state machine (10_state.md rule R20). -/
inductive RxState where
  | idle
  | pending
deriving DecidableEq, Repr

/-- The Checksum Engine's working registers (10_state.md rule R29). -/
structure CrcEngine where
  /-- `CRC_REG`. -/
  reg : Word
  /-- `CRC_BYTE`. -/
  byte : Byte
deriving DecidableEq, Repr

/-- The Bit Stuffer's working registers (10_state.md rule R30). -/
structure Stuffer where
  /-- `RUN_LEN`. -/
  runLen : Nat
  /-- `LAST_BIT`: `none` is the spec's `NONE`. -/
  lastBit : Option Bool
  /-- The input cursor's word index. -/
  wordIndex : Nat
  /-- The input cursor's bit index. -/
  bitIndex : Nat
  /-- `OUT_BITS`. -/
  outBits : Nat
deriving DecidableEq, Repr

/-- The Bit Unstuffer's working registers (10_state.md rule R30). -/
structure Unstuffer where
  /-- `RUN_LEN`. -/
  runLen : Nat
  /-- `LAST_BIT`: `none` is the spec's `NONE`. -/
  lastBit : Option Bool
  /-- `SKIP`: the next incoming bit is discarded. -/
  skip : Bool
  /-- The input cursor's byte index. -/
  byteIndex : Nat
  /-- The input cursor's bit index. -/
  bitIndex : Nat
  /-- `OUT_BITS`. -/
  outBits : Nat
deriving DecidableEq, Repr

/-- A frame buffer: the elements written since the latest reset with their indices, indices strictly
rising (20_memory.md rule R37). A byte buffer is a list of `Host.Cell`. -/
abbrev Buffer (α : Type) := List (Nat × α)

/-- The canonical form of a buffer: indices strictly rising, so that equal contents are equal lists. -/
abbrev Memory.wf {α : Type} (b : Buffer α) : Prop := (b.map Prod.fst).Pairwise (· < ·)

/-- The whole state: the elements of 10_state.md rule R13, and after them the model's own fields. -/
structure State where
  /-- `SELF_ADDR` (R14). -/
  selfAddr : Word
  /-- `PEER_ADDR` (R15). -/
  peerAddr : Word
  /-- `BCAST_ADDR` (R16). -/
  bcastAddr : Word
  /-- `RESERVE` (R17). -/
  reserve : Byte
  /-- `GATE.busy` (R19). -/
  busy : Bool
  /-- `RX_STATE` (R20). -/
  rxState : RxState
  /-- `SENT` (R21). -/
  sent : Counter
  /-- `RECEIVED` (R22). -/
  received : Counter
  /-- `MISSED` (R23). -/
  missed : Counter
  /-- `TXU` (R25). -/
  txu : Buffer Word
  /-- `TXS` (R26). -/
  txs : Buffer Word
  /-- `TXS_LEN` (R26). -/
  txsLen : Nat
  /-- `RXS` (R27). -/
  rxs : Buffer Byte
  /-- `RXU` (R28). -/
  rxu : Buffer Byte
  /-- `RXU_BITS` (R28). -/
  rxuBits : Nat
  /-- The Checksum Engine (R29). -/
  crc : CrcEngine
  /-- The Bit Stuffer (R30). -/
  stuffer : Stuffer
  /-- The Bit Unstuffer (R30). -/
  unstuffer : Unstuffer
  /-- Model's own: the inputs not yet run, in the order of the schedule (R155; log 4). -/
  pending : List Input
  /-- Model's own: the output trace, oldest first (R12, R35; log 5). -/
  trace : List Output
  /-- Model's own: what the latest operation returned (R12, R72; log 5). -/
  result : Result
  /-- Model's own: the verdict of the latest `EV_FRAME_BOUNDARY` (R72; log 5). -/
  rxVerdict : Option Verdict
  /-- Model's own: the number of resets, on which the free contents of unwritten buffer elements
  depend (log 2). -/
  epoch : Nat
deriving DecidableEq, Repr

/-- Working registers at reset: the values each use begins with (R29, R30; log 3). -/
def CrcEngine.initial : CrcEngine := { reg := Config.crcInit, byte := 0#8 }

/-- See `CrcEngine.initial`. -/
def Stuffer.initial : Stuffer :=
  { runLen := 1, lastBit := Config.stuffInitLast, wordIndex := 0, bitIndex := 0, outBits := 0 }

/-- See `CrcEngine.initial`. -/
def Unstuffer.initial : Unstuffer :=
  { runLen := 1, lastBit := Config.stuffInitLast, skip := false, byteIndex := 0, bitIndex := 0,
    outBits := 0 }

/-- Power-up (R36, R165): the identity registers hold the free arguments (log 1), the buffers
unspecified contents (log 2). -/
def State.reset : State where
  selfAddr := Config.selfAddrReset
  peerAddr := Config.peerAddrReset
  bcastAddr := Config.bcastAddrReset
  reserve := Config.reserveReset
  busy := false
  rxState := .idle
  sent := 0#32
  received := 0#32
  missed := 0#32
  txu := []
  txs := []
  txsLen := 0
  rxs := []
  rxu := []
  rxuBits := 0
  crc := .initial
  stuffer := .initial
  unstuffer := .initial
  pending := []
  trace := []
  result := .nothing
  rxVerdict := none
  epoch := 0

end Sys2Proof.Machine
end

