-- ==== Sys2Proof/Machine/Ops.lean ====
section
/-! DEFINITION. The named operations over buffers and registers that the meanings share, and the
entry to and return from a receive handler (spec 60_exceptions.md rules R157, R158), this hardware's
counterpart of taking an exception. -/

namespace Sys2Proof.Machine

/-- What every operation and every step answers. -/
abbrev Answer := Host.Outcome State Fault Refusal

/-! Buffers (spec 20_memory.md rules R37, R43, R44). -/

/-- The element written at index `i`, if any was. -/
def Buffer.lookup {α : Type} : Buffer α → Nat → Option α
  | [], _ => none
  | (k, v) :: rest, i => if k = i then some v else Buffer.lookup rest i

/-- `B[i] <- v`. -/
def Buffer.write {α : Type} : Buffer α → Nat → α → Buffer α
  | [], i, v => [(i, v)]
  | (k, w) :: rest, i, v =>
    if i < k then (i, v) :: (k, w) :: rest
    else if i = k then (i, v) :: rest
    else (k, w) :: Buffer.write rest i v

/-- `B[i .. i + n) <- vs`. -/
def Buffer.writeFrom {α : Type} : Buffer α → Nat → List α → Buffer α
  | b, _, [] => b
  | b, i, v :: vs => Buffer.writeFrom (Buffer.write b i v) (i + 1) vs

/-- `TXU[i]`; an element nobody wrote since the latest reset is a free value (R25; log 2). -/
def State.txuRead (s : State) (i : Nat) : Word :=
  (Buffer.lookup s.txu i).getD (Config.txuUnspecified s.epoch i)

/-- `TXS[i]` (R26; log 2). -/
def State.txsRead (s : State) (i : Nat) : Word :=
  (Buffer.lookup s.txs i).getD (Config.txsUnspecified s.epoch i)

/-- `RXS[i]` (R27; log 2). -/
def State.rxsRead (s : State) (i : Nat) : Byte :=
  (Buffer.lookup s.rxs i).getD (Config.rxsUnspecified s.epoch i)

/-- `RXU[i]` (R28; log 2). -/
def State.rxuRead (s : State) (i : Nat) : Byte :=
  (Buffer.lookup s.rxu i).getD (Config.rxuUnspecified s.epoch i)

/-- `TXU[0 .. 12)`. -/
def State.txuWords (s : State) : List Word := (List.range Config.maxPacketLenWords).map s.txuRead

/-- `TXS[0 .. m)`. -/
def State.txsWords (s : State) (m : Nat) : List Word := (List.range m).map s.txsRead

/-- `RXS[0 .. 36)`. -/
def State.rxsBytes (s : State) : List Byte :=
  (List.range Config.maxStuffedPacketLenBytes).map s.rxsRead

/-- `RXU[0 .. 36)`. -/
def State.rxuBytes (s : State) : List Byte :=
  (List.range Config.maxStuffedPacketLenBytes).map s.rxuRead

/-- The bytes the transport serialises from `TXS[0 .. TXS_LEN)` (20_memory.md rule R41). -/
def State.wireBytes (s : State) : List Byte := wordsToBytes (s.txsWords s.txsLen)

/-! Results, outputs, counters. -/

/-- `return r` (00_scope.md rule R12). -/
def State.respond (s : State) (r : Result) : State := { s with result := r }

/-- `emit o` (00_scope.md rule R12). -/
def State.emit (s : State) (o : Output) : State := { s with trace := s.trace ++ [o] }

/-- `C <- (C + 1) mod 2^COUNTER_BITS` (10_state.md rule R24). -/
def countUp (c : Counter) : Counter := c + 1

/-- `SENT` takes one more. -/
def State.countSent (s : State) : State := { s with sent := countUp s.sent }

/-- `RECEIVED` takes one more. -/
def State.countReceived (s : State) : State := { s with received := countUp s.received }

/-- `MISSED` takes one more. -/
def State.countMissed (s : State) : State := { s with missed := countUp s.missed }

/-! Handlers. -/

/-- Handler entry: nothing is saved; the receive state machine goes from Idle to Pending
(60_exceptions.md rule R157, 45_session_ops.md rule R142). -/
def State.enterReceive (s : State) : State := { s with rxState := .pending }

/-- Handler return: the receive buffer is re-armed and the receive state machine goes back to Idle
(60_exceptions.md rule R158, 45_session_ops.md rules R137, R139). -/
def State.leaveReceive (s : State) : State := { s.emit .rearmReceive with rxState := .idle }

end Sys2Proof.Machine
end

