-- ==== Sys2Proof/Machine/Reserved.lean ====
section
/-! DEFINITION. The rows that are no operation: the reserved operation bytes, which are refused
(spec 30_encoding.md rule R73), and the frame words, which are data (rules R9, R55). -/

namespace Sys2Proof.Machine

/-- A reserved encoding: no operation, no state change, reported by name (rule R73). -/
def refuseReserved (op : Byte) : Answer := .refused (.reservedOperation op)

/-- A frame word in the place of an operation record: none of the sixteen operations (rule R9). -/
def refuseFrameWord (role : FrameRole) : Answer := .refused (.frameWordIsNoOperation role)

/-- `0x07`. -/
def execReserved07 (_s : State) : Answer := refuseReserved 0x07#8

/-- `0x0B` to `0x0F`. -/
def execReserved0B0F (index : BitVec 3) (_s : State) : Answer := refuseReserved (0b00001#5 ++ index)

/-- `0x16`, `0x17`. -/
def execReserved1617 (low : BitVec 1) (_s : State) : Answer := refuseReserved (0b0001011#7 ++ low)

/-- `0x18` to `0x1F`. -/
def execReservedClass11 (index : BitVec 3) (_s : State) : Answer :=
  refuseReserved (0b00011#5 ++ index)

/-- `0x20` to `0xFF`. -/
def execReservedHighBits (op : Byte) (_s : State) : Answer := refuseReserved op

/-- `address_word`. -/
def execWAddress (_a : Word) (_s : State) : Answer := refuseFrameWord .address

/-- `header_word`. -/
def execWHeader (_m : BitVec 1) (_r : BitVec 7) (_len : Byte) (_s : State) : Answer :=
  refuseFrameWord .header

/-- A payload word. -/
def execWPayload (_h _l : Byte) (_s : State) : Answer := refuseFrameWord .payload

/-- `checksum_word`. -/
def execWChecksum (_c : Word) (_s : State) : Answer := refuseFrameWord .checksum

/-- `terminator_word`. -/
def execWTerminator (_s : State) : Answer := refuseFrameWord .terminator

end Sys2Proof.Machine
end

