-- ==== Sys2Proof/Machine/Flags.lean ====
section
/-! DEFINITION. The flags and condition results (spec 10_state.md rule R33): the transmit gate, the
receive state, the STATUS register, the result codes, and the buffer owners that follow from them. -/

namespace Sys2Proof.Machine

/-- `GATE.busy <- 1`: TX Idle to TX Pending (10_state.md rule R19). -/
def State.setGate (s : State) : State := { s with busy := true }

/-- `GATE.busy <- 0`: TX Pending to TX Idle (10_state.md rule R19). -/
def State.clearGate (s : State) : State := { s with busy := false }

/-- The bit of `RX_STATE`: 0 is Idle, 1 is Pending (10_state.md rule R20). -/
def RxState.bit : RxState → BitVec 1
  | .idle => 0#1
  | .pending => 1#1

/-- `STATUS`: bit 0 = `GATE.busy`, bit 1 = `RX_STATE`, bits 31:2 = 0 (10_state.md rule R18). -/
def State.status (s : State) : BitVec 32 := 0#30 ++ s.rxState.bit ++ BitVec.ofBool s.busy

/-- Result codes (30_encoding.md rule R72). -/
def Verdict.code : Verdict → Nat
  | .accept => 0
  | .invalidAddress => 2
  | .invalidLength => 3
  | .checksumMismatch => 4

/-- Result codes of `SEND` (30_encoding.md rule R72); other results have none. -/
def Result.code : Result → Option Nat
  | .ok => some 0
  | .busy => some 1
  | .verdict v => some v.code
  | .nothing => none
  | .u32 _ => none
  | .u16 _ => none
  | .frame _ => none
  | .stuffed _ _ => none
  | .unstuffed _ _ => none

/-- Who owns a frame buffer: not stored, a function of the flags (10_state.md rule R34 (c)). -/
inductive Owner where
  | producer
  | transport
  | handler
deriving DecidableEq, Repr

/-- The owner of `TXS` (20_memory.md rule R49). -/
def State.txsOwner (s : State) : Owner := if s.busy then .transport else .producer

/-- The owner of `RXS` (20_memory.md rule R50). -/
def State.rxsOwner (s : State) : Owner :=
  match s.rxState with
  | .idle => .transport
  | .pending => .handler

end Sys2Proof.Machine
end

