-- ==== Sys2Proof/Machine/Operands.lean ====
section
/-! DEFINITION. How operands become values: the destination a selector names (spec 30_encoding.md
rule R69), the value a register number reads (10_state.md rule R18), the fill of short operand lists
(30_encoding.md rule R71), the payload contract (41_frame_encode.md rule R91). -/

namespace Sys2Proof.Machine

/-- `dest <- (sel = PEER) ? PEER_ADDR : BCAST_ADDR` (45_session_ops.md rule R131). -/
def State.destination (s : State) : Dest → Word
  | .peer => s.peerAddr
  | .broadcast => s.bcastAddr

/-- The value `RD` returns, zero-extended to 32 bits (10_state.md rule R18). -/
def State.readRegister (s : State) : RegName → BitVec 32
  | .selfAddr => s.selfAddr.setWidth 32
  | .peerAddr => s.peerAddr.setWidth 32
  | .bcastAddr => s.bcastAddr.setWidth 32
  | .reserve => s.reserve.setWidth 32
  | .status => s.status
  | .sent => s.sent.setWidth 32
  | .received => s.received.setWidth 32
  | .missed => s.missed.setWidth 32

/-- The first `n` elements of a list, completed with `fill` (30_encoding.md rule R71). -/
def fillTo {α : Type} (n : Nat) (fill : α) (xs : List α) : List α :=
  xs.take n ++ List.replicate (n - xs.length) fill

/-- The 12-word input array of `STUFF`. -/
def stuffOperand (ws : List Word) : List Word := fillTo Config.maxPacketLenWords Config.termWord ws

/-- The 36-byte input array of `UNSTUFF`. -/
def unstuffOperand (bs : List Byte) : List Byte :=
  fillTo Config.maxStuffedPacketLenBytes Config.termByte bs

/-- The 36-byte input array of `VALIDATE`. -/
def validateOperand (bs : List Byte) : List Byte := fillTo Config.maxStuffedPacketLenBytes 0x00#8 bs

/-- The payload contract: `L` even and `L <= 16` (41_frame_encode.md rule R91). -/
def payloadLegal (p : List Byte) : Bool :=
  p.length % 2 == 0 && decide (p.length ≤ Config.maxPayloadSize)

end Sys2Proof.Machine
end

