-- ==== Sys2Proof/Machine/Crc.lean ====
section
/-! DEFINITION. The Checksum Engine (spec 40_crc.md): `CRC16_UPDATE` and `CRC16`. -/

namespace Sys2Proof.Machine

/-- One bit-step: the test bit is the XOR of the register's and the byte's top bits before the shift
(rule R78). -/
def CrcEngine.bitStep (c : CrcEngine) : CrcEngine where
  reg := if c.reg.msb ^^ c.byte.msb then (c.reg <<< 1) ^^^ Config.crcPoly else c.reg <<< 1
  byte := c.byte <<< 1

/-- `n` bit-steps. -/
def CrcEngine.bitSteps : Nat → CrcEngine → CrcEngine
  | 0, c => c
  | n + 1, c => CrcEngine.bitSteps n c.bitStep

/-- One input byte: eight bit-steps, most-significant bit first (rule R78). -/
def CrcEngine.feed (c : CrcEngine) (b : Byte) : CrcEngine :=
  CrcEngine.bitSteps 8 { c with byte := b }

/-- A byte sequence folded from the initial value `0xFFFF` (rule R80). -/
def CrcEngine.run (c : CrcEngine) (bs : List Byte) : CrcEngine :=
  bs.foldl CrcEngine.feed { c with reg := Config.crcInit }

/-- `CRC16_UPDATE byte, reg -> reg'` as a function (rule R78). -/
def crcUpdate (byte : Byte) (reg : Word) : Word := (CrcEngine.feed { reg, byte := 0#8 } byte).reg

/-- `CRC16 [b0 .. b(n-1)] -> c` as a function (rule R80). -/
def crcOf (bs : List Byte) : Word := bs.foldl (fun reg b => crcUpdate b reg) Config.crcInit

/-- `CRC16_UPDATE` (rule R78). -/
def execCrc16Update (byte : Byte) (reg : Word) (s : State) : Answer :=
  let engine := CrcEngine.feed { s.crc with reg } byte
  .next ({ s with crc := engine }.respond (.u16 engine.reg))

/-- `CRC16` (rule R80). -/
def execCrc16 (bs : List Byte) (s : State) : Answer :=
  let engine := s.crc.run bs
  .next ({ s with crc := engine }.respond (.u16 engine.reg))

end Sys2Proof.Machine
end

