-- ==== Sys2Proof/Machine/FrameEncode.lean ====
section
/-! DEFINITION. The Frame Codec's assembler (spec 41_frame_encode.md): `ENCODE` with the collision
rule. -/

namespace Sys2Proof.Machine

/-- `header_word = (reserve_byte << 8) | payload_length` (rule R86). -/
def headerWord (reserve : Byte) (len : Nat) : Word := cat reserve (BitVec.ofNat 8 len)

/-- The bytes the checksum covers: address, header and payload words, each high byte first
(rule R88). -/
def checkedBytes (dest header : Word) (p : List Byte) : List Byte :=
  wordsToBytes (dest :: header :: wordsOfBytes p)

/-- The loop of the collision rule (rule R88): while the checksum is the terminator, toggle header
bit 15 and start again. The fuel bounds the passes; rule R89 shows that two suffice. -/
def settleHeader (checksum : Word → Word) : Nat → Word → Word
  | 0, header => header
  | fuel + 1, header =>
    if checksum header = Config.termWord then
      settleHeader checksum fuel (header ^^^ Config.flipMask)
    else header

/-- The checksum of a frame with the given header (rule R88). -/
def frameChecksum (dest : Word) (p : List Byte) (header : Word) : Word :=
  crcOf (checkedBytes dest header p)

/-- The header as it is transmitted, after the collision rule (rules R86, R88). -/
def settledHeader (dest : Word) (reserve : Byte) (p : List Byte) : Word :=
  settleHeader (frameChecksum dest p) 2 (headerWord reserve p.length)

/-- `ENCODE dest, reserve, p -> W`, the UnstuffedFrame of a legal payload (rules R84 to R90). -/
def encodeFrame (dest : Word) (reserve : Byte) (p : List Byte) : List Word :=
  let header := settledHeader dest reserve p
  dest :: header :: wordsOfBytes p ++ [frameChecksum dest p header, Config.termWord]

/-- The Checksum Engine after `ENCODE`: it last ran over the bytes of the settled frame. -/
def encodeEngine (c : CrcEngine) (dest : Word) (reserve : Byte) (p : List Byte) : CrcEngine :=
  c.run (checkedBytes dest (settledHeader dest reserve p) p)

/-- `ENCODE` invoked directly (rules R83, R84, R91). -/
def execEncode (dest : Word) (reserve : Byte) (p : List Byte) (s : State) : Answer :=
  if payloadLegal p then
    .next ({ s with crc := encodeEngine s.crc dest reserve p }.respond
      (.frame (encodeFrame dest reserve p)))
  else .fault (.contractViolation p.length)

end Sys2Proof.Machine
end

