-- ==== Sys2Proof/Machine/BitStuffer.lean ====
section
/-! DEFINITION. The Bit Stuffer (spec 42_bit_stuffer.md): `STUFF`. -/

namespace Sys2Proof.Machine

/-- The run-length part of a stuffer's or unstuffer's working registers: `RUN_LEN`, `LAST_BIT`. -/
structure Run where
  len : Nat
  last : Option Bool
deriving DecidableEq, Repr

/-- The run before the first bit, for a given `STUFF_INIT_LAST` (rules R96, R107). -/
def Run.start (initLast : Option Bool) : Run := { len := 1, last := initLast }

/-- A bit is emitted: it continues the run or starts one of length 1 (rule R97). -/
def Run.see (r : Run) (b : Bool) : Run :=
  { len := if r.last = some b then r.len + 1 else 1, last := some b }

/-- The run after the complement of `b` has been inserted, or removed, behind five bits `b`
(rules R98, R109). -/
def Run.broken (b : Bool) : Run := { len := 1, last := some (!b) }

/-- One data bit: what is emitted, and the run after it (rules R97, R98). -/
def stuffBit (r : Run) (b : Bool) : List Bool × Run :=
  if (r.see b).len = Config.stuffRun then ([b, !b], Run.broken b) else ([b], r.see b)

/-- A string of data bits (rules R97, R98). -/
def stuffBits : Run → List Bool → List Bool × Run
  | r, [] => ([], r)
  | r, b :: bs =>
    let (out, r') := stuffBit r b
    let (outs, r'') := stuffBits r' bs
    (out ++ outs, r'')

/-- The words scanned: from index 0 up to, and not including, the first `0xFFFF`; the input array
has 12 words, the scan's limit (rules R95, R99). -/
def scannedWords (u : List Word) : List Word :=
  (u.take Config.maxPacketLenWords).takeWhile (fun w => w != Config.termWord)

/-- The data bits of a list of words, each word most-significant bit first (rule R95). -/
def dataBits (ws : List Word) : List Bool := ws.flatMap wordBits

/-- The stuffed data region, for a given `STUFF_INIT_LAST` (rules R94 to R99). -/
def stuffedRegion (initLast : Option Bool) (u : List Word) : List Bool :=
  (stuffBits (Run.start initLast) (dataBits (scannedWords u))).1

/-- The number of pad bits behind `n` bits (rule R101). -/
def padLength (n : Nat) : Nat := (16 - n % 16) % 16

/-- The stuffed data region and the zero pad (rule R101). -/
def paddedRegion (initLast : Option Bool) (u : List Word) : List Bool :=
  let region := stuffedRegion initLast u
  region ++ List.replicate (padLength region.length) false

/-- `STUFF U -> S[0..m)` for a given `STUFF_INIT_LAST`: the padded region as words, and the
terminator (rules R94, R101). -/
def stuffFrom (initLast : Option Bool) (u : List Word) : List Word :=
  let bits := paddedRegion initLast u
  packWords (bits.length / 16) bits ++ [Config.termWord]

/-- `STUFF U -> S[0..m)`; `m` is the list's length (rule R94). -/
def stuffWords (u : List Word) : List Word := stuffFrom Config.stuffInitLast u

/-- The Bit Stuffer after `STUFF` (rules R94, R30): `OUT_BITS` counts region and pad; the bit index
is back at 0 (log 3). -/
def stufferAfter (u : List Word) : Stuffer :=
  let run := (stuffBits (Run.start Config.stuffInitLast) (dataBits (scannedWords u))).2
  { runLen := run.len
    lastBit := run.last
    wordIndex := (scannedWords u).length
    bitIndex := 0
    outBits := (paddedRegion Config.stuffInitLast u).length }

/-- `STUFF` invoked directly (rules R93, R94; 30_encoding.md rule R71). -/
def execStuff (ws : List Word) (s : State) : Answer :=
  let u := stuffOperand ws
  .next ({ s with stuffer := stufferAfter u }.respond
    (.stuffed (stuffWords u) (stuffWords u).length))

end Sys2Proof.Machine
end

