-- ==== Sys2Proof/Machine/BitUnstuffer.lean ====
section
/-! DEFINITION. The Bit Unstuffer (spec 43_bit_unstuffer.md): `UNSTUFF`. -/

namespace Sys2Proof.Machine

/-- The unstuffer's run and its `SKIP` flag. -/
structure SkipRun where
  run : Run
  skip : Bool
deriving DecidableEq, Repr

/-- Before the first bit (rule R107). -/
def SkipRun.start (initLast : Option Bool) : SkipRun := { run := Run.start initLast, skip := false }

/-- One input bit: what is emitted, and the registers after it. A bit to be skipped is discarded
whatever its value; after the fifth bit of a run the next one is to be skipped
(rules R105, R108, R109). -/
def unstuffBit (u : SkipRun) (b : Bool) : List Bool × SkipRun :=
  if u.skip then ([], { u with skip := false })
  else if (u.run.see b).len = Config.stuffRun then ([b], { run := Run.broken b, skip := true })
  else ([b], { run := u.run.see b, skip := false })

/-- A string of input bits. -/
def unstuffBits : SkipRun → List Bool → List Bool × SkipRun
  | u, [] => ([], u)
  | u, b :: bs =>
    let (out, u') := unstuffBit u b
    let (outs, u'') := unstuffBits u' bs
    (out ++ outs, u'')

/-- The bytes scanned: from index 0 up to, and not including, the first `0xFF`, compared as a whole
byte whatever `SKIP` holds; the input array has 36 bytes, the scan's limit (rules R106, R110). -/
def scannedBytes (bs : List Byte) : List Byte :=
  (bs.take Config.maxStuffedPacketLenBytes).takeWhile (fun b => b != Config.termByte)

/-- The scan of an input array (rules R105 to R110). -/
def unstuffScan (bs : List Byte) : List Bool × SkipRun :=
  unstuffBits (SkipRun.start Config.stuffInitLast) ((scannedBytes bs).flatMap byteBits)

/-- The emitted bits (rule R105). -/
def unstuffedBits (bs : List Byte) : List Bool := (unstuffScan bs).1

/-- `R[0..36)`: the emitted bits, completed with zeros (rules R105, R107). -/
def unstuffBytes (bs : List Byte) : List Byte :=
  packBytes Config.maxStuffedPacketLenBytes (unstuffedBits bs)

/-- `n`, the number of bits emitted (rule R105). -/
def unstuffCount (bs : List Byte) : Nat := (unstuffedBits bs).length

/-- The Bit Unstuffer after `UNSTUFF` (rules R105, R30); the bit index is back at 0 (log 3). -/
def unstufferAfter (bs : List Byte) : Unstuffer :=
  let u := (unstuffScan bs).2
  { runLen := u.run.len
    lastBit := u.run.last
    skip := u.skip
    byteIndex := (scannedBytes bs).length
    bitIndex := 0
    outBits := unstuffCount bs }

/-- `UNSTUFF` invoked directly (rules R104, R105; 30_encoding.md rule R71). -/
def execUnstuff (bs : List Byte) (s : State) : Answer :=
  let input := unstuffOperand bs
  .next ({ s with unstuffer := unstufferAfter input }.respond
    (.unstuffed (unstuffBytes input) (unstuffCount input)))

end Sys2Proof.Machine
end

