-- ==== Sys2Proof/Machine/FrameValidate.lean ====
section
/-! DEFINITION. The Frame Codec's validator (spec 44_frame_validate.md): `VALIDATE`. -/

namespace Sys2Proof.Machine

/-- Element `i` of the unstuffed array `R`. -/
def byteAt (r : List Byte) (i : Nat) : Byte := r.getD i 0x00#8

/-- Checks 1 and 2: each address byte equals self's or broadcast's, independently
(rules R118, R119). -/
def addressPasses (self bc : Word) (r : List Byte) : Bool :=
  (byteAt r 0 == hi self || byteAt r 0 == hi bc) && (byteAt r 1 == lo self || byteAt r 1 == lo bc)

/-- The declared payload length, byte 3 (rule R120). -/
def declaredLength (r : List Byte) : Nat := (byteAt r 3).toNat

/-- Check 3 (rule R120). -/
def lengthPasses (r : List Byte) : Bool := decide (declaredLength r ≤ Config.maxPayloadSize)

/-- The bytes the checksum is recomputed over: `R[0 .. L+4)` (rule R121). -/
def validatedBytes (r : List Byte) : List Byte :=
  (List.range (declaredLength r + 4)).map (byteAt r)

/-- The received checksum, high byte first (rule R121). -/
def receivedChecksum (r : List Byte) : Word :=
  cat (byteAt r (declaredLength r + 4)) (byteAt r (declaredLength r + 5))

/-- `VALIDATE self, bc, R -> result`: the checks in order, the first failing one decides
(rules R116, R122). -/
def validateFrame (self bc : Word) (r : List Byte) : Verdict :=
  if !addressPasses self bc r then .invalidAddress
  else if !lengthPasses r then .invalidLength
  else if crcOf (validatedBytes r) = receivedChecksum r then .accept
  else .checksumMismatch

/-- The Checksum Engine after `VALIDATE`: it runs only when check 4 is reached (rule R116). -/
def validateEngine (c : CrcEngine) (self bc : Word) (r : List Byte) : CrcEngine :=
  if addressPasses self bc r && lengthPasses r then c.run (validatedBytes r) else c

/-- `VALIDATE` invoked directly (rules R115, R116; 30_encoding.md rule R71). -/
def execValidate (self bc : Word) (bs : List Byte) (s : State) : Answer :=
  let r := validateOperand bs
  .next ({ s with crc := validateEngine s.crc self bc r }.respond
    (.verdict (validateFrame self bc r)))

end Sys2Proof.Machine
end

