-- ==== Sys2Proof/Machine/Session.lean ====
section
/-! DEFINITION. The Node Session (spec 45_session_ops.md): the producer commands and the transport
events. -/

namespace Sys2Proof.Machine

/-! Producer commands. -/

/-- `RESET`: the state of power-up (rules R125, R165). The inputs not yet run and the output trace
are no state of the core and stay; no output is emitted; buffer contents become unspecified anew. -/
def execReset (s : State) : Answer :=
  .next { State.reset with pending := s.pending, trace := s.trace, epoch := s.epoch + 1 }

/-- `CFG_SELF v` (rule R126). -/
def execCfgSelf (v : Word) (s : State) : Answer := .next ({ s with selfAddr := v }.respond .nothing)

/-- `CFG_PEER v` (rule R127). -/
def execCfgPeer (v : Word) (s : State) : Answer := .next ({ s with peerAddr := v }.respond .nothing)

/-- `CFG_BCAST v` (rule R128). -/
def execCfgBcast (v : Word) (s : State) : Answer := .next ({ s with bcastAddr := v }.respond .nothing)

/-- `CFG_RESERVE v` (rule R129). -/
def execCfgReserve (v : Byte) (s : State) : Answer := .next ({ s with reserve := v }.respond .nothing)

/-- `TXU[0 .. N) <- ENCODE(dest, RESERVE, p)`; higher words stay (rule R131; 10_state.md rule R25). -/
def State.encodeIntoTxu (s : State) (dest : Word) (p : List Byte) : State :=
  { s with
    txu := Buffer.writeFrom s.txu 0 (encodeFrame dest s.reserve p)
    crc := encodeEngine s.crc dest s.reserve p }

/-- `(S, m) <- STUFF(TXU); TXS[0 .. m) <- S; TXS_LEN <- m`; higher words stay (rule R131; 10_state.md
rule R26). -/
def State.stuffIntoTxs (s : State) : State :=
  { s with
    txs := Buffer.writeFrom s.txs 0 (stuffWords s.txuWords)
    txsLen := (stuffWords s.txuWords).length
    stuffer := stufferAfter s.txuWords }

/-- `emit begin_transmit(TXS[0 .. m), m)` (rules R131, R140). -/
def State.beginTransmit (s : State) : State :=
  s.emit (.beginTransmit (s.txsWords s.txsLen) s.txsLen)

/-- `SEND` with the gate clear and a legal payload, in the order of 20_memory.md rule R47. -/
def State.sendFrame (s : State) (sel : Dest) (p : List Byte) : State :=
  ((((s.setGate).encodeIntoTxu (s.destination sel) p).stuffIntoTxs).beginTransmit).respond .ok

/-- `SEND sel, p` (rules R131 to R133): the gate test comes first. -/
def execSend (sel : Dest) (p : List Byte) (s : State) : Answer :=
  if s.busy then .next (s.respond .busy)
  else if payloadLegal p then .next (s.sendFrame sel p)
  else .fault (.contractViolation p.length)

/-- `RD reg` (rule R134). -/
def execRd (reg : RegName) (s : State) : Answer := .next (s.respond (.u32 (s.readRegister reg)))

/-! Transport events. -/

/-- `EV_TX_COMPLETE` (rules R135, R136): unconditional. -/
def execEvTxComplete (s : State) : Answer :=
  .next ((((s.emit .txCursorReset).countSent).clearGate).respond .nothing)

/-- `RXS[0 .. 36) <- img`: what the transport wrote before the event (rule R137; 10_state.md rule
R27). -/
def State.storeImage (s : State) (img : List Byte) : State :=
  { s with rxs := Buffer.writeFrom s.rxs 0 (img.take Config.maxStuffedPacketLenBytes) }

/-- `(RXU, RXU_BITS) <- UNSTUFF(RXS)` (rule R137). -/
def State.unstuffIntoRxu (s : State) : State :=
  { s with
    rxu := Buffer.writeFrom s.rxu 0 (unstuffBytes s.rxsBytes)
    rxuBits := unstuffCount s.rxsBytes
    unstuffer := unstufferAfter s.rxsBytes }

/-- `r <- VALIDATE(SELF_ADDR, BCAST_ADDR, RXU)` (rule R137); the model records `r` (30_encoding.md
rule R72; log 5). -/
def State.judge (s : State) : State :=
  { s with
    crc := validateEngine s.crc s.selfAddr s.bcastAddr s.rxuBytes
    rxVerdict := some (validateFrame s.selfAddr s.bcastAddr s.rxuBytes) }

/-- `RECEIVED` takes one more on `Accept`, `MISSED` on any `Reject` (rule R137). -/
def State.countVerdict (s : State) : State :=
  if s.rxVerdict = some .accept then s.countReceived else s.countMissed

/-- `EV_FRAME_BOUNDARY img` (rules R137, R138). -/
def execEvFrameBoundary (img : List Byte) (s : State) : Answer :=
  .next (((((((s.enterReceive).storeImage img).unstuffIntoRxu).judge).countVerdict).leaveReceive).respond
    .nothing)

/-- An overrun counts as a miss only under the parameter `COUNT_OVERRUN_AS_MISSED` (rule R139). -/
def State.countOverrun (s : State) : State :=
  if Config.countOverrunAsMissed then s.countMissed else s

/-- `EV_RX_OVERRUN` (rule R139). -/
def execEvRxOverrun (s : State) : Answer :=
  .next ((((s.enterReceive).countOverrun).leaveReceive).respond .nothing)

end Sys2Proof.Machine
end

