-- ==== Sys2Proof/Machine/Dispatch.lean ====
section
/-! DEFINITION. The dispatch: one arm for each constructor of `Instr`, one direct call of its meaning. -/

namespace Sys2Proof.Machine

/-- The meaning of an instruction. -/
def exec (i : Instr) (s : State) : Host.Outcome State Fault Refusal :=
  match i with
  | .reset => Sys2Proof.Machine.execReset s
  | .cfgSelf v => Sys2Proof.Machine.execCfgSelf v s
  | .cfgPeer v => Sys2Proof.Machine.execCfgPeer v s
  | .cfgBcast v => Sys2Proof.Machine.execCfgBcast v s
  | .cfgReserve v => Sys2Proof.Machine.execCfgReserve v s
  | .send sel p => Sys2Proof.Machine.execSend sel p s
  | .rd reg => Sys2Proof.Machine.execRd reg s
  | .evTxComplete => Sys2Proof.Machine.execEvTxComplete s
  | .evFrameBoundary img => Sys2Proof.Machine.execEvFrameBoundary img s
  | .evRxOverrun => Sys2Proof.Machine.execEvRxOverrun s
  | .crc16Update byte reg => Sys2Proof.Machine.execCrc16Update byte reg s
  | .crc16 bs => Sys2Proof.Machine.execCrc16 bs s
  | .encode dest reserve p => Sys2Proof.Machine.execEncode dest reserve p s
  | .stuff ws => Sys2Proof.Machine.execStuff ws s
  | .unstuff bs => Sys2Proof.Machine.execUnstuff bs s
  | .validate self bc bs => Sys2Proof.Machine.execValidate self bc bs s
  -- reserved operation bytes: refused, as rule R73 says
  | .reserved07 => Sys2Proof.Machine.execReserved07 s
  | .reserved0B0F index => Sys2Proof.Machine.execReserved0B0F index s
  | .reserved1617 low => Sys2Proof.Machine.execReserved1617 low s
  | .reservedClass11 index => Sys2Proof.Machine.execReservedClass11 index s
  | .reservedHighBits op => Sys2Proof.Machine.execReservedHighBits op s
  -- frame words: data, none of the sixteen operations (rule R9)
  | .wAddress a => Sys2Proof.Machine.execWAddress a s
  | .wHeader m r len => Sys2Proof.Machine.execWHeader m r len s
  | .wPayload h l => Sys2Proof.Machine.execWPayload h l s
  | .wChecksum c => Sys2Proof.Machine.execWChecksum c s
  | .wTerminator => Sys2Proof.Machine.execWTerminator s

end Sys2Proof.Machine
end

