-- ==== Sys2Proof/Machine/Fetch.lean ====
section
/-! DEFINITION. Taking the next input: which operation an agent's bytes are, whether that agent may
issue it (spec 60_exceptions.md rule R159), and what stays pending (log 4, log 6). -/

namespace Sys2Proof.Machine

/-- What stands at the head of the pending inputs. -/
inductive Fetched where
  /-- Nothing is pending: the core is idle (60_exceptions.md rule R163). -/
  | idle
  /-- The input is refused. -/
  | refuse (r : Refusal)
  /-- An instruction, and the state with its input consumed. -/
  | run (i : Instr) (s : State)
deriving DecidableEq, Repr

/-- The agent whose class an operation belongs to (rules R9, R159); the reserved rows and the frame
words belong to none. -/
def issuerOf : Instr → Option Agent
  | .reset => some .producer
  | .cfgSelf _ => some .producer
  | .cfgPeer _ => some .producer
  | .cfgBcast _ => some .producer
  | .cfgReserve _ => some .producer
  | .send _ _ => some .producer
  | .rd _ => some .producer
  | .evTxComplete => some .transport
  | .evFrameBoundary _ => some .transport
  | .evRxOverrun => some .transport
  | .crc16Update _ _ => some .direct
  | .crc16 _ => some .direct
  | .encode _ _ _ => some .direct
  | .stuff _ => some .direct
  | .unstuff _ => some .direct
  | .validate _ _ _ => some .direct
  | .reserved07 => none
  | .reserved0B0F _ => none
  | .reserved1617 _ => none
  | .reservedClass11 _ => none
  | .reservedHighBits _ => none
  | .wAddress _ => none
  | .wHeader _ _ _ => none
  | .wPayload _ _ => none
  | .wChecksum _ => none
  | .wTerminator => none

/-- An agent issues only the operations of its own class (rule R159); a reserved row is refused by
its own meaning whoever issues it. -/
def mayIssue (a : Agent) (i : Instr) : Bool := (issuerOf i).all (fun owner => owner == a)

/-- The refusal a decoding error is reported as (rule R73). -/
def refusalOf : DecodeError → Refusal
  | .truncated => .truncatedRecord
  | .reservedSelector sel => .reservedSelector sel
  | .reservedRegister reg => .reservedRegister reg

/-- Bytes left over behind a record are the same agent's next record (log 6). -/
def pendingAfter (a : Agent) (tail : List Byte) (rest : List Input) : List Input :=
  match tail with
  | [] => rest
  | _ :: _ => .record a tail :: rest

/-- Take the next input. -/
def fetch (s : State) : Fetched :=
  match s.pending with
  | [] => .idle
  | .record a bs :: rest =>
    match decode bs with
    | .ok (i, tail) =>
      if mayIssue a i then .run i { s with pending := pendingAfter a tail rest }
      else .refuse (.wrongAgent a)
    | .error e => .refuse (refusalOf e)
  | .frameWord role w :: rest =>
    match decodeFrameWord role w with
    | some i => .run i { s with pending := rest }
    | none => .refuse (.notAFrameWord role w)

/-- The agent that issues the operation an operation byte names: by its class (30_encoding.md rule
R67). -/
def agentOfOpByte (op : Byte) : Agent :=
  match (op.extractLsb' 3 2).toNat with
  | 0 => .producer
  | 1 => .transport
  | _ => .direct

/-- The record at the head of a byte string, cut behind its last byte. -/
def cutRecord (bs : List Byte) : List Byte :=
  match decode bs with
  | .ok (i, _) => bs.take (encode i).length
  | .error _ => bs

/-- The input that hands over the instruction of an opcode-table word: a frame word for the rows the
table gives 16 bits, an operation record of its class's agent for the others (log 4, log 9). -/
def tableInput (nbits w : Nat) : Input :=
  if nbits = 16 then .frameWord (loneRole (BitVec.ofNat 16 w)) (BitVec.ofNat 16 w)
  else .record (agentOfOpByte (BitVec.ofNat 8 w)) (cutRecord (tableBytes nbits w))

end Sys2Proof.Machine
end

