-- ==== Sys2Proof/Machine/Step.lean ====
section
/-! DEFINITION. One step: the next pending input is run as one atomic operation (spec 00_scope.md rule
R10, 20_memory.md rule R45). -/

namespace Sys2Proof.Machine

/-- One step. With nothing pending the core is idle and nothing changes. -/
def step (s : State) : Host.Outcome State Fault Refusal :=
  match fetch s with
  | .idle => .next s
  | .refuse r => .refused r
  | .run i s' => exec i s'

/-- `s` with the instruction of an opcode-table word as the input that the next step runs. -/
def State.withFetchWord (s : State) (nbits w : Nat) : State :=
  { s with pending := tableInput nbits w :: s.pending }

end Sys2Proof.Machine
end

