-- ==== Sys2Proof/Machine/Text.lean ====
section
/-! DEFINITION. The textual syntax of operations and results, and the expansions of the
pseudo-operations (spec 30_encoding.md rules R75, R76; log 12). -/

namespace Sys2Proof.Machine

/-- One hexadecimal digit. -/
def hexDigit (n : Nat) : Char := ['0', '1', '2', '3', '4', '5', '6', '7', '8', '9', 'A', 'B', 'C', 'D', 'E', 'F'].getD n '0'

/-- A byte as two digits. -/
def hexByte (b : Byte) : String := String.ofList [hexDigit (b.toNat / 16), hexDigit (b.toNat % 16)]

/-- A word as four digits. -/
def hexWord (w : Word) : String := hexByte (hi w) ++ hexByte (lo w)

/-- A 32-bit value as eight digits. -/
def hexLong (v : BitVec 32) : String := hexWord (v.extractLsb' 16 16) ++ hexWord (v.extractLsb' 0 16)

/-- A bracketed list. -/
def textList {α : Type} (f : α → String) (xs : List α) : String :=
  "[" ++ " ".intercalate (xs.map f) ++ "]"

/-- A register by name. -/
def RegName.text : RegName → String
  | .selfAddr => "SELF_ADDR"
  | .peerAddr => "PEER_ADDR"
  | .bcastAddr => "BCAST_ADDR"
  | .reserve => "RESERVE"
  | .status => "STATUS"
  | .sent => "SENT"
  | .received => "RECEIVED"
  | .missed => "MISSED"

/-- A selector by name. -/
def Dest.text : Dest → String
  | .peer => "PEER"
  | .broadcast => "BROADCAST"

/-- One operation per line, mnemonic first (rule R75); the rows that are no operation have no text. -/
def instrText : Instr → Option String
  | .reset => some "RESET"
  | .cfgSelf v => some ("CFG_SELF 0x" ++ hexWord v)
  | .cfgPeer v => some ("CFG_PEER 0x" ++ hexWord v)
  | .cfgBcast v => some ("CFG_BCAST 0x" ++ hexWord v)
  | .cfgReserve v => some ("CFG_RESERVE 0x" ++ hexByte v)
  | .send sel p => some ("SEND " ++ Dest.text sel ++ ", " ++ textList hexByte p)
  | .rd reg => some ("RD " ++ RegName.text reg)
  | .evTxComplete => some "EV_TX_COMPLETE"
  | .evFrameBoundary img => some ("EV_FRAME_BOUNDARY " ++ textList hexByte img)
  | .evRxOverrun => some "EV_RX_OVERRUN"
  | .crc16Update b reg => some ("CRC16_UPDATE 0x" ++ hexByte b ++ ", 0x" ++ hexWord reg)
  | .crc16 bs => some ("CRC16 " ++ textList hexByte bs)
  | .encode dest r p => some ("ENCODE 0x" ++ hexWord dest ++ ", 0x" ++ hexByte r ++ ", " ++ textList hexByte p)
  | .stuff ws => some ("STUFF " ++ textList hexWord ws)
  | .unstuff bs => some ("UNSTUFF " ++ textList hexByte bs)
  | .validate self bc bs => some ("VALIDATE 0x" ++ hexWord self ++ ", 0x" ++ hexWord bc ++ ", " ++ textList hexByte bs)
  | .reserved07 => none
  | .reserved0B0F _ => none
  | .reserved1617 _ => none
  | .reservedClass11 _ => none
  | .reservedHighBits _ => none
  | .wAddress _ => none
  | .wHeader _ _ _ => none
  | .wPayload _ _ => none
  | .wChecksum _ => none
  | .wTerminator => none

/-- A verdict by name. -/
def Verdict.text : Verdict → String
  | .accept => "Accept"
  | .invalidAddress => "InvalidAddress"
  | .invalidLength => "InvalidLength"
  | .checksumMismatch => "ChecksumMismatch"

/-- What stands behind `->` (rule R75); nothing where nothing is returned. -/
def resultText : Result → Option String
  | .nothing => none
  | .ok => some "Ok"
  | .busy => some "Busy"
  | .u32 v => some ("0x" ++ hexLong v)
  | .u16 v => some ("0x" ++ hexWord v)
  | .frame ws => some (textList hexWord ws)
  | .stuffed ws _ => some (textList hexWord ws)
  | .unstuffed bs n => some ("R = " ++ textList hexByte bs ++ ", n = " ++ toString n)
  | .verdict v => some v.text

/-- `WAIT_IDLE` goes round again while bit 0 of the value read is 1 (rule R76). -/
def pollAgain : Result → Bool
  | .u32 v => v.getLsbD 0
  | _ => false

/-- The expansion of a pseudo-operation whose waiting loop reads `STATUS` `polls` times (rule R76);
the loop is the producer's and has no bound of its own. -/
def Pseudo.expand (polls : Nat) : Pseudo → List Instr
  | .waitIdle => List.replicate polls (.rd .status)
  | .sendBlocking sel p => List.replicate polls (.rd .status) ++ [.send sel p]
  | .cfgIdentity self peer bcast => [.cfgSelf self, .cfgPeer peer, .cfgBcast bcast]

end Sys2Proof.Machine
end

