-- ==== Sys2Proof/Safety.lean ====
section
/-! DEFINITION. What counts as a safe state and a safe run: the invariant every step keeps, runs of
whole operations (spec 20_memory.md rule R45), and the transport adapter's contract as an assumption
on a run (spec 60_exceptions.md rule R161 (a)). -/

namespace Sys2Proof.Machine

/-- Every index of a buffer is below its size (spec 20_memory.md rule R37). -/
abbrev indicesBelow {α : Type} (n : Nat) (b : Buffer α) : Prop := ∀ e ∈ b, e.1 < n

/-- The invariant of the core between operations. -/
structure State.Inv (s : State) : Prop where
  /-- Buffers are canonical. -/
  txuForm : Memory.wf s.txu
  txsForm : Memory.wf s.txs
  rxsForm : Memory.wf s.rxs
  rxuForm : Memory.wf s.rxu
  /-- Buffers have the sizes of 10_state.md rules R25 to R28. -/
  txuSize : indicesBelow 12 s.txu
  txsSize : indicesBelow 18 s.txs
  rxsSize : indicesBelow 36 s.rxs
  rxuSize : indicesBelow 36 s.rxu
  /-- `TXS_LEN` is 0 to 18 (R26). -/
  txsLenBound : s.txsLen ≤ 18
  /-- A frame in flight ends with the terminator, the last valid word of `TXS` (R46). -/
  inFlight : s.busy = true → 0 < s.txsLen ∧ Buffer.lookup s.txs (s.txsLen - 1) = some 0xFFFF#16
  /-- `RXU_BITS` is 0 to 288 (R28). -/
  rxuBitsBound : s.rxuBits ≤ 288
  /-- The receive state machine is Idle between operations (R20, R142). -/
  rxIdle : s.rxState = .idle
  /-- `RUN_LEN` is 1 to 5, the cursors stay in their ranges (R30). -/
  stufferRun : 1 ≤ s.stuffer.runLen ∧ s.stuffer.runLen ≤ 5
  stufferCursors : s.stuffer.wordIndex ≤ 12 ∧ s.stuffer.bitIndex ≤ 15 ∧ s.stuffer.outBits ≤ 288
  unstufferRun : 1 ≤ s.unstuffer.runLen ∧ s.unstuffer.runLen ≤ 5
  unstufferCursors :
    s.unstuffer.byteIndex ≤ 36 ∧ s.unstuffer.bitIndex ≤ 7 ∧ s.unstuffer.outBits ≤ 288

/-- An operation that cannot violate the payload contract in a state (93_implementation_defined.md
U1). -/
def honoursContract (i : Instr) (s : State) : Prop :=
  match i with
  | .send _ p => s.busy = true ∨ payloadLegal p = true
  | .encode _ _ p => payloadLegal p = true
  | _ => True

/-- A run of whole operations, in the order of the schedule; it stops at the first fault or refusal. -/
def execAll : List Instr → State → Answer
  | [], s => .next s
  | i :: is, s =>
    match exec i s with
    | .next t => execAll is t
    | .fault r => .fault r
    | .refused r => .refused r

/-- The transport's contract along a run: `EV_TX_COMPLETE` only for an outstanding `begin_transmit`. -/
def transportHonours : List Instr → State → Prop
  | [], _ => True
  | i :: is, s =>
    (i = .evTxComplete → s.busy = true) ∧ ∀ t, exec i s = .next t → transportHonours is t

/-- How many operations of a run returned `Ok`. -/
def okCount : List Instr → State → Nat
  | [], _ => 0
  | i :: is, s =>
    match exec i s with
    | .next t => (if t.result = .ok then 1 else 0) + okCount is t
    | .fault _ => 0
    | .refused _ => 0

/-- Whether an instruction is an `EV_FRAME_BOUNDARY`. -/
def isFrameBoundary : Instr → Bool
  | .evFrameBoundary _ => true
  | _ => false

/-- Whether an instruction is an `EV_RX_OVERRUN`. -/
def isOverrun : Instr → Bool
  | .evRxOverrun => true
  | _ => false

/-- Whether an output is a `begin_transmit`. -/
def isBeginTransmit : Output → Bool
  | .beginTransmit _ _ => true
  | _ => false

end Sys2Proof.Machine
end

