-- ==== Sys2Proof/Certificates/Slice0/Obligations.lean ====
section
/-! DEFINITION. The statements for the provers, from the numbered rules of spec/. -/

namespace Sys2Proof.Claims

open Sys2Proof.Machine

/-- The payload contract of 41_frame_encode.md rule R91, in the rule's own words. -/
abbrev legal (p : List Byte) : Prop := p.length % 2 = 0 ∧ p.length ≤ 16

/-- The operation bytes 30_encoding.md rule R73 reserves. -/
abbrev reservedByte (op : Byte) : Prop :=
  0x20 ≤ op.toNat ∨ (0x18 ≤ op.toNat ∧ op.toNat ≤ 0x1F) ∨ op = 0x07#8 ∨
    (0x0B ≤ op.toNat ∧ op.toNat ≤ 0x0F) ∨ op = 0x16#8 ∨ op = 0x17#8

/-- The class of operations an agent issues (60_exceptions.md rule R159; class `10` is direct
invocation). -/
def classOf : Agent → Nat
  | .producer => 0
  | .transport => 1
  | .direct => 2

/-- The destination a selector names (30_encoding.md rule R69). -/
def destinationOf (s : State) : Dest → Word
  | .peer => s.peerAddr
  | .broadcast => s.bcastAddr

/-- The frame `SEND` builds in a state (45_session_ops.md rule R131). -/
def sentFrame (s : State) (sel : Dest) (p : List Byte) : List Word :=
  encodeFrame (destinationOf s sel) s.reserve p

/-- The bytes of a frame before its terminator. -/
def organicBytes (frame : List Word) : List Byte := wordsToBytes frame.dropLast

/-- The address filter of 44_frame_validate.md rules R118 and R119. -/
abbrev admits (self bc address : Word) : Prop :=
  (hi address = hi self ∨ hi address = hi bc) ∧ (lo address = lo self ∨ lo address = lo bc)

/-- One step of the byte-wise form of 40_crc.md rule R79. -/
def byteWiseStep (r : Word) : Word := if r.getLsbD 15 then (r <<< 1) ^^^ 0x8005#16 else r <<< 1

/-- The byte-wise form of 40_crc.md rule R79: eight steps on `reg XOR (byte << 8)`. -/
def byteWiseUpdate (byte : Byte) (reg : Word) : Word :=
  byteWiseStep^[8] (reg ^^^ (byte.setWidth 16 <<< 8))

/-- A flag as a number of `COUNTER_BITS` bits. -/
def flag (b : Bool) : Counter := if b then 1 else 0

end Sys2Proof.Claims

section

open Sys2Proof Sys2Proof.Machine Sys2Proof.Claims

/-! Reset and configuration. -/

/-- R125: `RESET` in any state; `GATE.busy = 1` makes no difference, no output is emitted. The buffer
contents become unspecified: every element reads as the free value of the new epoch (log 2). -/
def Obligations.ResetTakesTheResetValues : Prop :=
  ∀ s : State, ∃ t, exec .reset s = .next t ∧
    t.busy = false ∧ t.rxState = .idle ∧
    t.sent = 0 ∧ t.received = 0 ∧ t.missed = 0 ∧ t.txsLen = 0 ∧ t.rxuBits = 0 ∧
    t.selfAddr = Config.selfAddrReset ∧ t.peerAddr = Config.peerAddrReset ∧
    t.bcastAddr = Config.bcastAddrReset ∧ t.reserve = Config.reserveReset ∧
    t.txu = [] ∧ t.txs = [] ∧ t.rxs = [] ∧ t.rxu = [] ∧
    t.trace = s.trace ∧ t.pending = s.pending ∧ t.result = .nothing

/-- R165: power-up. -/
def Obligations.PowerUpIsIdleWithCountersClear : Prop :=
  State.reset.busy = false ∧ State.reset.rxState = .idle ∧
    State.reset.sent = 0 ∧ State.reset.received = 0 ∧ State.reset.missed = 0 ∧
    State.reset.txsLen = 0 ∧ State.reset.rxuBits = 0 ∧
    State.reset.selfAddr = Config.selfAddrReset ∧ State.reset.peerAddr = Config.peerAddrReset ∧
    State.reset.bcastAddr = Config.bcastAddrReset ∧ State.reset.reserve = Config.reserveReset ∧
    State.reset.trace = []

/-- R126 to R129: each setter writes its register, in any state and for any value, and nothing else
changes; each record reads as its setter. -/
def Obligations.SettersWriteTheirRegisterAlone : Prop :=
  ∀ (s : State) (v : Word) (r : Byte) (tail : List Byte),
    decode (0x01#8 :: hi v :: lo v :: tail) = .ok (.cfgSelf v, tail) ∧
    decode (0x02#8 :: hi v :: lo v :: tail) = .ok (.cfgPeer v, tail) ∧
    decode (0x03#8 :: hi v :: lo v :: tail) = .ok (.cfgBcast v, tail) ∧
    decode (0x04#8 :: r :: tail) = .ok (.cfgReserve r, tail) ∧
    exec (.cfgSelf v) s = .next { s with selfAddr := v, result := .nothing } ∧
    exec (.cfgPeer v) s = .next { s with peerAddr := v, result := .nothing } ∧
    exec (.cfgBcast v) s = .next { s with bcastAddr := v, result := .nothing } ∧
    exec (.cfgReserve r) s = .next { s with reserve := r, result := .nothing }

/-- R134 with the table of R18: `RD` returns the numbered register zero-extended and changes nothing. -/
def Obligations.ReadReturnsTheNamedRegister : Prop :=
  ∀ s : State,
    (∀ tail, decode (0x06#8 :: 0#8 :: tail) = .ok (.rd .selfAddr, tail) ∧
      decode (0x06#8 :: 1#8 :: tail) = .ok (.rd .peerAddr, tail) ∧
      decode (0x06#8 :: 2#8 :: tail) = .ok (.rd .bcastAddr, tail) ∧
      decode (0x06#8 :: 3#8 :: tail) = .ok (.rd .reserve, tail) ∧
      decode (0x06#8 :: 4#8 :: tail) = .ok (.rd .status, tail) ∧
      decode (0x06#8 :: 5#8 :: tail) = .ok (.rd .sent, tail) ∧
      decode (0x06#8 :: 6#8 :: tail) = .ok (.rd .received, tail) ∧
      decode (0x06#8 :: 7#8 :: tail) = .ok (.rd .missed, tail)) ∧
    exec (.rd .selfAddr) s = .next { s with result := .u32 (s.selfAddr.setWidth 32) } ∧
    exec (.rd .peerAddr) s = .next { s with result := .u32 (s.peerAddr.setWidth 32) } ∧
    exec (.rd .bcastAddr) s = .next { s with result := .u32 (s.bcastAddr.setWidth 32) } ∧
    exec (.rd .reserve) s = .next { s with result := .u32 (s.reserve.setWidth 32) } ∧
    exec (.rd .sent) s = .next { s with result := .u32 s.sent } ∧
    exec (.rd .received) s = .next { s with result := .u32 s.received } ∧
    exec (.rd .missed) s = .next { s with result := .u32 s.missed } ∧
    (∃ v, exec (.rd .status) s = .next { s with result := .u32 v } ∧
      v.getLsbD 0 = s.busy ∧ v.getLsbD 1 = decide (s.rxState = .pending) ∧
      ∀ k, 2 ≤ k → v.getLsbD k = false) ∧
    (∀ reg : Byte, 8 ≤ reg.toNat → ∀ tail,
      decode (0x06#8 :: reg :: tail) = .error (.reservedRegister reg))

/-! SEND. -/

/-- R132: the gate test comes first; nothing but the returned result changes, whatever the payload. -/
def Obligations.SendWhileBusyReturnsBusy : Prop :=
  ∀ (s : State) (sel : Dest) (p : List Byte), s.busy = true →
    exec (.send sel p) s = .next { s with result := .busy }

/-- R133: a bad length while not busy. -/
def Obligations.SendOfABadLengthFaults : Prop :=
  ∀ (s : State) (sel : Dest) (p : List Byte), s.busy = false →
    (p.length % 2 = 1 ∨ 16 < p.length) →
    exec (.send sel p) s = .fault (.contractViolation p.length)

/-- R131: the gate set, the frame in `TXU`, its stuffed form in `TXS` with its length, one
`begin_transmit` of exactly those words, `Ok`. -/
def Obligations.SendHandsOverTheStuffedFrame : Prop :=
  ∀ (s : State) (sel : Dest) (p : List Byte), s.busy = false → legal p →
    ∃ t, exec (.send sel p) s = .next t ∧ t.busy = true ∧ t.result = .ok ∧
      t.txuWords.take (p.length / 2 + 4) = sentFrame s sel p ∧
      t.txsLen = (stuffWords (sentFrame s sel p)).length ∧
      t.txsWords t.txsLen = stuffWords (sentFrame s sel p) ∧
      t.trace = s.trace ++ [.beginTransmit (stuffWords (sentFrame s sel p)) t.txsLen]

/-- The frame of `SEND`, `Ok` or `Busy`: registers, counters and the receive side stay; `TXU` at and
above the frame's length and `TXS` at and above `TXS_LEN` keep what they held (R25, R26, R45). -/
def Obligations.SendLeavesTheRestUnchanged : Prop :=
  ∀ (s t : State) (sel : Dest) (p : List Byte), exec (.send sel p) s = .next t →
    t.selfAddr = s.selfAddr ∧ t.peerAddr = s.peerAddr ∧ t.bcastAddr = s.bcastAddr ∧
    t.reserve = s.reserve ∧ t.rxState = s.rxState ∧
    t.sent = s.sent ∧ t.received = s.received ∧ t.missed = s.missed ∧
    t.rxuBits = s.rxuBits ∧ t.unstuffer = s.unstuffer ∧ t.pending = s.pending ∧
    t.rxVerdict = s.rxVerdict ∧
    (∀ k, t.rxsRead k = s.rxsRead k) ∧ (∀ k, t.rxuRead k = s.rxuRead k) ∧
    (∀ k, (sentFrame s sel p).length ≤ k → t.txuRead k = s.txuRead k) ∧
    (∀ k, t.txsLen ≤ k → t.txsRead k = s.txsRead k)

/-- R173: an organic `0xFFFF` word cuts the transmitted frame: a destination `0xFFFF` leaves the
single word `FFFF`; a payload pair `FF FF` ends the frame before its word. -/
def Obligations.OrganicTerminatorTruncatesTheFrame : Prop :=
  ∀ (s : State) (sel : Dest) (p : List Byte), s.busy = false → legal p →
    ∃ t, exec (.send sel p) s = .next t ∧ t.result = .ok ∧
      (destinationOf s sel = 0xFFFF#16 → t.txsWords t.txsLen = [0xFFFF#16]) ∧
      (∀ k, p[2 * k]? = some 0xFF#8 → p[2 * k + 1]? = some 0xFF#8 →
        t.txsWords t.txsLen = stuffWords ((sentFrame s sel p).take (2 + k)))

/-! The transport events. -/

/-- R135, R136: whatever the gate holds. -/
def Obligations.TransmitCompleteCountsAndClearsTheGate : Prop :=
  (∀ tail, decode (0x08#8 :: tail) = .ok (.evTxComplete, tail)) ∧
  ∀ s : State, exec .evTxComplete s =
    .next { s with
      trace := s.trace ++ [.txCursorReset], sent := s.sent + 1, busy := false, result := .nothing }

/-- R24: an increment is taken modulo `2^32`; `0xFFFFFFFF` goes to 0. -/
def Obligations.CountersWrapToZero : Prop :=
  ∀ (s t : State) (img : List Byte),
    (exec .evTxComplete s = .next t → t.sent.toNat = (s.sent.toNat + 1) % 2 ^ 32) ∧
    (exec (.evFrameBoundary img) s = .next t →
      (t.received.toNat = (s.received.toNat + 1) % 2 ^ 32 ∧ t.missed = s.missed) ∨
      (t.missed.toNat = (s.missed.toNat + 1) % 2 ^ 32 ∧ t.received = s.received))

/-- R137: the image is unstuffed into `RXU`, judged, counted, and the receiver re-armed; a reject is
silent. -/
def Obligations.FrameBoundaryUnstuffsJudgesAndCounts : Prop :=
  ∀ (s : State) (img : List Byte), img.length = 36 →
    (∀ tail, decode (0x09#8 :: (img ++ tail)) = .ok (.evFrameBoundary img, tail)) ∧
    ∃ t, exec (.evFrameBoundary img) s = .next t ∧
      t.rxsBytes = img ∧ t.rxuBytes = unstuffBytes img ∧ t.rxuBits = unstuffCount img ∧
      (validateFrame s.selfAddr s.bcastAddr (unstuffBytes img) = .accept →
        t.received = s.received + 1 ∧ t.missed = s.missed) ∧
      (validateFrame s.selfAddr s.bcastAddr (unstuffBytes img) ≠ .accept →
        t.received = s.received ∧ t.missed = s.missed + 1) ∧
      t.trace = s.trace ++ [.rearmReceive] ∧ t.rxState = .idle ∧ t.result = .nothing

/-- The frame of `EV_FRAME_BOUNDARY` (R138): configuration, gate, `SENT` and the whole transmit side
stay. -/
def Obligations.FrameBoundaryLeavesTheTransmitSideUnchanged : Prop :=
  ∀ (s t : State) (img : List Byte), exec (.evFrameBoundary img) s = .next t →
    t.selfAddr = s.selfAddr ∧ t.peerAddr = s.peerAddr ∧ t.bcastAddr = s.bcastAddr ∧
    t.reserve = s.reserve ∧ t.busy = s.busy ∧ t.sent = s.sent ∧ t.txsLen = s.txsLen ∧
    t.stuffer = s.stuffer ∧ t.pending = s.pending ∧
    (∀ k, t.txuRead k = s.txuRead k) ∧ (∀ k, t.txsRead k = s.txsRead k) ∧
    (∀ k, 36 ≤ k → t.rxsRead k = s.rxsRead k) ∧ (∀ k, 36 ≤ k → t.rxuRead k = s.rxuRead k)

/-- R139: an overrun re-arms and counts nothing. -/
def Obligations.OverrunOnlyRearms : Prop :=
  (∀ tail, decode (0x0A#8 :: tail) = .ok (.evRxOverrun, tail)) ∧
  ∀ s : State, exec .evRxOverrun s =
    .next { s with rxState := .idle, trace := s.trace ++ [.rearmReceive], result := .nothing }

/-- R138: what a frame boundary leaves on the receive side depends on the image, the two filter
addresses and the two counters alone: not on the gate, the peer address or the transmit side. The
recorded verdict is the model's own field (R72; log 5). -/
def Obligations.ReceptionIgnoresTheTransmitSide : Prop :=
  ∀ (s₁ s₂ : State) (img : List Byte), img.length = 36 →
    s₁.selfAddr = s₂.selfAddr → s₁.bcastAddr = s₂.bcastAddr →
    s₁.received = s₂.received → s₁.missed = s₂.missed →
    ∃ t₁ t₂, exec (.evFrameBoundary img) s₁ = .next t₁ ∧ exec (.evFrameBoundary img) s₂ = .next t₂ ∧
      t₁.received = t₂.received ∧ t₁.missed = t₂.missed ∧ t₁.rxuBytes = t₂.rxuBytes ∧
      t₁.rxuBits = t₂.rxuBits ∧ t₁.unstuffer = t₂.unstuffer ∧ t₁.rxVerdict = t₂.rxVerdict ∧
      t₁.rxVerdict = some (validateFrame s₁.selfAddr s₁.bcastAddr (unstuffBytes img))

/-- R155, two of its pairs: a frame boundary and an overrun commute; a `SEND` racing the completion of
the previous transmission returns `Ok` behind the event and `Busy` before it. -/
def Obligations.ReceiveEventsCommuteAndSendRacesCompletion : Prop :=
  (∀ (s : State) (img : List Byte),
    execAll [.evFrameBoundary img, .evRxOverrun] s =
      execAll [.evRxOverrun, .evFrameBoundary img] s) ∧
  (∀ (s : State) (sel : Dest) (p : List Byte), s.busy = true → legal p →
    (∃ t, execAll [.evTxComplete, .send sel p] s = .next t ∧ t.result = .ok ∧ t.busy = true) ∧
    (∃ t u, exec (.send sel p) s = .next t ∧ t.result = .busy ∧
      exec .evTxComplete t = .next u ∧ u.busy = false))

/-! The Checksum Engine. -/

/-- R79 with R77, R78: `CRC16_UPDATE` is the byte-wise form, for every byte and register value; the
operation changes nothing but its own working registers and the result. What `CRC_REG` and `CRC_BYTE`
hold after a direct invocation is the model's choice (log 3, log 16). -/
def Obligations.CrcUpdateEqualsByteWiseForm : Prop :=
  ∀ (s : State) (byte : Byte) (reg : Word), exec (.crc16Update byte reg) s =
    .next { s with
      crc := { reg := byteWiseUpdate byte reg, byte := 0#8 }, result := .u16 (byteWiseUpdate byte reg) }

/-- R80: `CRC16` folds `CRC16_UPDATE` from `0xFFFF` in increasing order; the empty sequence returns
`0xFFFF`; only the engine's working registers and the result change (R77). That the checksum stays in `CRC_REG`
after a direct invocation is the model's choice (log 3, log 16). -/
def Obligations.CrcFoldsTheUpdateFromAllOnes : Prop :=
  ∀ (s : State) (bs : List Byte),
    (bs.length ≤ 255 → ∀ tail,
      decode (0x11#8 :: BitVec.ofNat 8 bs.length :: (bs ++ tail)) = .ok (.crc16 bs, tail)) ∧
    ∃ c : CrcEngine,
    exec (.crc16 bs) s =
      .next { s with crc := c, result := .u16 (bs.foldl (fun r b => byteWiseUpdate b r) 0xFFFF#16) } ∧
    c.reg = bs.foldl (fun r b => byteWiseUpdate b r) 0xFFFF#16

/-- R81 (a): linearity. -/
def Obligations.CrcIsLinear : Prop :=
  ∀ a b : List Byte, a.length = b.length →
    crcOf (List.zipWith (· ^^^ ·) a b) =
      crcOf a ^^^ crcOf b ^^^ crcOf (List.replicate a.length 0x00#8)

/-- R81 (b): one flipped bit changes the checksum. -/
def Obligations.SingleBitFlipChangesTheCrc : Prop :=
  ∀ (m : List Byte) (k j : Nat), k < m.length → j < 8 →
    crcOf (m.modify k (· ^^^ (1#8 <<< j))) ≠ crcOf m

/-- R81 (c): the residue over a message and its checksum, high byte first, is 0. -/
def Obligations.CrcResidueIsZero : Prop :=
  ∀ m : List Byte, crcOf (m ++ [hi (crcOf m), lo (crcOf m)]) = 0x0000#16

/-- R81 (d): what the collision rule's flip does to the checksum, for `L = 0`, `2` and `16`. -/
def Obligations.HeaderFlipXorsAKnownValue : Prop :=
  ∀ m : List Byte,
    (m.length = 4 → crcOf (m.modify 2 (· ^^^ 0x80#8)) = crcOf m ^^^ 0x8009#16) ∧
    (m.length = 6 → crcOf (m.modify 2 (· ^^^ 0x80#8)) = crcOf m ^^^ 0x803F#16) ∧
    (m.length = 20 → crcOf (m.modify 2 (· ^^^ 0x80#8)) = crcOf m ^^^ 0x8A3F#16)

/-! The Frame Codec. -/

/-- R84 to R90: the words `ENCODE` returns. The header is toggled once exactly when the checksum of
the unmutated frame is `0xFFFF` (R89); the checksum is that of the transmitted header. Only the
engine's working registers and the result change. -/
def Obligations.EncodeBuildsTheFrame : Prop :=
  ∀ (s : State) (dest : Word) (reserve : Byte) (p : List Byte), legal p →
    ∃ (c : CrcEngine) (header : Word) (payload : List Word),
      exec (.encode dest reserve p) s =
        .next { s with
          crc := c
          result := .frame (dest :: header :: payload ++
            [crcOf (wordsToBytes (dest :: header :: payload)), 0xFFFF#16]) } ∧
      payload.length = p.length / 2 ∧
      (∀ k, k < p.length / 2 →
        payload[k]? = some (cat (p.getD (2 * k) 0) (p.getD (2 * k + 1) 0))) ∧
      header =
        (if crcOf (wordsToBytes (dest :: cat reserve (BitVec.ofNat 8 p.length) :: payload)) = 0xFFFF#16
          then cat reserve (BitVec.ofNat 8 p.length) ^^^ 0x8000#16
          else cat reserve (BitVec.ofNat 8 p.length))

/-- R92 (a), the collision rule's guarantee: no encoded frame's checksum word is the sentinel. -/
def Obligations.ChecksumIsNeverTheSentinel : Prop :=
  ∀ (s t : State) (dest : Word) (reserve : Byte) (p : List Byte) (ws : List Word),
    exec (.encode dest reserve p) s = .next t → t.result = .frame ws →
    ws.length = p.length / 2 + 4 ∧ ∃ c, ws[p.length / 2 + 2]? = some c ∧ c ≠ 0xFFFF#16

/-- R91: a bad length faults, in `ENCODE` and in the `SEND` that contains it. -/
def Obligations.EncodeOfABadLengthFaults : Prop :=
  ∀ (s : State) (dest : Word) (reserve : Byte) (p : List Byte), (p.length % 2 = 1 ∨ 16 < p.length) →
    exec (.encode dest reserve p) s = .fault (.contractViolation p.length) ∧
    (∀ sel, s.busy = false → exec (.send sel p) s = .fault (.contractViolation p.length))

/-- R116 with R118 to R122: the verdict is the first failing check's, for every operand; only the
engine's working registers and the result change. -/
def Obligations.ValidateReportsTheFirstFailingCheck : Prop :=
  ∀ (s : State) (self bc : Word) (bs : List Byte),
    (bs.length ≤ 255 → ∀ tail,
      decode (0x15#8 :: hi self :: lo self :: hi bc :: lo bc :: BitVec.ofNat 8 bs.length :: (bs ++ tail)) =
        .ok (.validate self bc bs, tail)) ∧
    ∃ (c : CrcEngine) (r : List Byte) (v : Verdict),
    exec (.validate self bc bs) s = .next { s with crc := c, result := .verdict v } ∧
    r = bs.take 36 ++ List.replicate (36 - bs.length) 0x00#8 ∧
    v = (if ¬ (r.getD 0 0 = hi self ∨ r.getD 0 0 = hi bc) then .invalidAddress
      else if ¬ (r.getD 1 0 = lo self ∨ r.getD 1 0 = lo bc) then .invalidAddress
      else if 16 < (r.getD 3 0).toNat then .invalidLength
      else if crcOf (r.take ((r.getD 3 0).toNat + 4)) =
          cat (r.getD ((r.getD 3 0).toNat + 4) 0) (r.getD ((r.getD 3 0).toNat + 5) 0) then .accept
      else .checksumMismatch)

/-- R119, the corrected example: with self `0x3234` and broadcast `0x5555` exactly four address words
pass the filter. -/
def Obligations.FourAddressesPassTheFilter : Prop :=
  ∀ (s t : State) (a : Word) (rest : List Byte),
    exec (.validate 0x3234#16 0x5555#16 (hi a :: lo a :: rest)) s = .next t →
    (t.result ≠ .verdict .invalidAddress ↔
      a = 0x3234#16 ∨ a = 0x3255#16 ∨ a = 0x5534#16 ∨ a = 0x5555#16)

/-- R92 (d), R123 (c): every frame `ENCODE` builds is accepted where the filter admits its address. -/
def Obligations.EncodedFramesAreAccepted : Prop :=
  ∀ (s : State) (self bc dest : Word) (reserve : Byte) (p : List Byte), legal p → admits self bc dest →
    ∃ t, exec (.validate self bc (organicBytes (encodeFrame dest reserve p))) s = .next t ∧
      t.result = .verdict .accept

/-- R123 (a): any one payload bit flipped after encoding is a checksum mismatch. -/
def Obligations.FlippedPayloadBitIsAMismatch : Prop :=
  ∀ (s : State) (self bc dest : Word) (reserve : Byte) (p : List Byte) (k j : Nat),
    legal p → admits self bc dest → k < p.length → j < 8 →
    ∃ t, exec (.validate self bc
        ((organicBytes (encodeFrame dest reserve p)).modify (4 + k) (· ^^^ (1#8 <<< j)))) s = .next t ∧
      t.result = .verdict .checksumMismatch

/-- R123 (b): the buffer an empty decode leaves is never accepted. -/
def Obligations.AllZeroBufferIsNeverAccepted : Prop :=
  ∀ (s : State) (self bc : Word), ∃ t, exec (.validate self bc []) s = .next t ∧
    t.result = .verdict
      (if (hi self = 0 ∨ hi bc = 0) ∧ (lo self = 0 ∨ lo bc = 0) then .checksumMismatch
        else .invalidAddress)

/-! The Bit Stuffer and the Bit Unstuffer. -/

/-- R101: `STUFF` returns the stuffed data region, padded with zeros to a word boundary and no
further, and the terminator; only the stuffer's working registers and the result change. -/
def Obligations.StuffPadsToAWordAndTerminates : Prop :=
  ∀ (s : State) (ws : List Word), ∃ (c : Stuffer) (body : List Word) (pad : Nat),
    exec (.stuff ws) s =
      .next { s with
        stuffer := c, result := .stuffed (body ++ [0xFFFF#16]) (body.length + 1) } ∧
    pad < 16 ∧
    dataBits body = stuffedRegion none (ws.take 12 ++ List.replicate (12 - ws.length) 0xFFFF#16) ++
      List.replicate pad false

/-- R102: the size bounds, and a frame that meets them. -/
def Obligations.StuffedSizeIsBounded : Prop :=
  (∀ u : List Word, u.length = 12 →
    16 * (scannedWords u).length ≤ (stuffedRegion none u).length ∧
    (5 ≤ 16 * (scannedWords u).length → (stuffedRegion none u).length ≤
      16 * (scannedWords u).length + 1 + (16 * (scannedWords u).length - 5) / 4) ∧
    (16 * (scannedWords u).length < 5 →
      (stuffedRegion none u).length = 16 * (scannedWords u).length) ∧
    (stuffedRegion none u).length ≤ 239 ∧
    1 ≤ (stuffWords u).length ∧ (stuffWords u).length ≤ 16) ∧
  (stuffedRegion none (0x0787#16 :: List.replicate 11 0x8787#16)).length = 239 ∧
  (∀ (dest : Word) (reserve : Byte) (p : List Byte), legal p →
    (stuffedRegion none (encodeFrame dest reserve p)).length ≤ 219 ∧
    (stuffWords (encodeFrame dest reserve p)).length ≤ 15)

/-- R103: in the stuffed data region of any input, five equal bits in a row are followed, inside the
region, by their complement; so no six are equal. -/
def Obligations.FiveEqualBitsAreFollowedByTheComplement : Prop :=
  ∀ (u : List Word) (before after : List Bool) (b : Bool),
    stuffedRegion none u = before ++ List.replicate 5 b ++ after →
    ∃ rest, after = (!b) :: rest

/-- R62: no byte before the terminator of a StuffedFrame is `0xFF`, so the first `0xFF` byte is the
terminator's first, at an even index. -/
def Obligations.NoSentinelByteBeforeTheTerminator : Prop :=
  ∀ u : List Word, ∃ body : List Byte,
    wordsToBytes (stuffWords u) = body ++ [0xFF#8, 0xFF#8] ∧ body.length % 2 = 0 ∧
    ∀ b ∈ body, b ≠ 0xFF#8

/-- R100 and R110: nothing behind the first sentinel is read, by the stuffer or by the unstuffer. -/
def Obligations.NothingBehindTheSentinelIsRead : Prop :=
  ∀ s : State,
    (∀ xs ys zs : List Word,
      exec (.stuff (xs ++ 0xFFFF#16 :: ys)) s = exec (.stuff (xs ++ 0xFFFF#16 :: zs)) s) ∧
    (∀ xs ys zs : List Byte,
      exec (.unstuff (xs ++ 0xFF#8 :: ys)) s = exec (.unstuff (xs ++ 0xFF#8 :: zs)) s)

/-- R109: bit by bit, unstuffing undoes stuffing, for every value of `STUFF_INIT_LAST` common to both. -/
def Obligations.UnstuffingMirrorsStuffing : Prop :=
  ∀ (initLast : Option Bool) (bits : List Bool),
    (unstuffBits (SkipRun.start initLast) (stuffBits (Run.start initLast) bits).1).1 = bits

/-- R105, R112: `UNSTUFF` answers for every input: 36 bytes that hold the emitted bits and zeros
behind them, at most 288 bits; only the unstuffer's working registers and the result change. -/
def Obligations.UnstuffIsTotalAndZeroFilled : Prop :=
  ∀ (s : State) (bs : List Byte), ∃ (c : Unstuffer) (r : List Byte) (bits : List Bool),
    exec (.unstuff bs) s = .next { s with unstuffer := c, result := .unstuffed r bits.length } ∧
    bits = (unstuffBits (SkipRun.start none)
      (((bs.take 36).takeWhile (fun b => b != 0xFF#8)).flatMap byteBits)).1 ∧
    bits.length ≤ 288 ∧ r.length = 36 ∧
    r.flatMap byteBits = bits ++ List.replicate (288 - bits.length) false

/-- R113, the round trip: a frame with no organic `0xFFFF` word, stuffed, placed at the head of the
receive buffer with any bytes behind it, and unstuffed, gives back its bytes before the terminator
and zeros behind them; the bit count exceeds them by at most 15 (R111). -/
def Obligations.UnstuffOfStuffOfEncodeIsTheFrame : Prop :=
  ∀ (s : State) (dest : Word) (reserve : Byte) (p tail : List Byte), legal p →
    (∀ w ∈ (encodeFrame dest reserve p).dropLast, w ≠ 0xFFFF#16) →
    ∃ t n, exec (.unstuff (wordsToBytes (stuffWords (encodeFrame dest reserve p)) ++ tail)) s = .next t ∧
      t.result = .unstuffed (organicBytes (encodeFrame dest reserve p) ++
        List.replicate (36 - (p.length + 6)) 0x00#8) n ∧
      8 * (p.length + 6) ≤ n ∧ n ≤ 8 * (p.length + 6) + 15

/-- From sender to receiver: what one node's `SEND` hands to the transport, delivered to a node whose
filter admits the destination, is accepted and counted, and the payload stands in `RXU`
(R131, R113, R92 (d), R137). -/
def Obligations.SentFramesAreReceived : Prop :=
  ∀ (a b : State) (sel : Dest) (p : List Byte), a.busy = false → legal p →
    (∀ w ∈ (sentFrame a sel p).dropLast, w ≠ 0xFFFF#16) →
    admits b.selfAddr b.bcastAddr (destinationOf a sel) →
    ∃ a', exec (.send sel p) a = .next a' ∧
      ∀ tail : List Byte, (a'.wireBytes ++ tail).length = 36 →
        ∃ b', exec (.evFrameBoundary (a'.wireBytes ++ tail)) b = .next b' ∧
          b'.received = b.received + 1 ∧ b'.missed = b.missed ∧
          (b'.rxuBytes.drop 4).take p.length = p ∧ b'.rxuRead 3 = BitVec.ofNat 8 p.length

/-! Encodings. -/

/-- R67 to R71: decoding the record of a well-formed operation gives it back, with every operand, and
leaves the bytes behind the record. -/
def Obligations.DecodeOfEncodeIsTheOperation : Prop :=
  ∀ (i : Instr) (tail : List Byte), i.wellFormed = true → i.frameWord = none →
    decode (encode i ++ tail) = .ok (i, tail)

/-- R67 to R71: what the decoder reads is well-formed, and its record is exactly the bytes read. -/
def Obligations.EncodeOfDecodeIsTheRecord : Prop :=
  ∀ (bs tail : List Byte) (i : Instr), decode bs = .ok (i, tail) →
    i.wellFormed = true ∧ i.frameWord = none ∧ encode i ++ tail = bs

/-- R57 to R60: a frame word read at its place in the frame gives its fields back, and every word
that is read is the word of its fields. -/
def Obligations.FrameWordsRoundTrip : Prop :=
  (∀ (i : Instr) (role : FrameRole) (w : Word), i.wellFormed = true → i.frameWord = some (role, w) →
    decodeFrameWord role w = some i) ∧
  (∀ (role : FrameRole) (w : Word) (i : Instr), decodeFrameWord role w = some i →
    i.wellFormed = true ∧ i.frameWord = some (role, w))

/-- Records written out byte by byte from the operation map R68 and the operand layouts R69 to R71. -/
def Obligations.WrittenRecordsDecode : Prop :=
  decode [0x00#8] = .ok (.reset, []) ∧
  decode [0x01#8, 0x32#8, 0x34#8] = .ok (.cfgSelf 0x3234#16, []) ∧
  decode [0x05#8, 0x01#8, 0x02#8, 0xEA#8, 0x9C#8] = .ok (.send .broadcast [0xEA#8, 0x9C#8], []) ∧
  decode [0x06#8, 0x04#8] = .ok (.rd .status, []) ∧
  decode [0x08#8] = .ok (.evTxComplete, []) ∧
  decode [0x10#8, 0x31#8, 0xFF#8, 0xFF#8] = .ok (.crc16Update 0x31#8 0xFFFF#16, []) ∧
  decode [0x12#8, 0x32#8, 0x34#8, 0x00#8, 0x01#8, 0x7E#8] =
    .ok (.encode 0x3234#16 0x00#8 [0x7E#8], []) ∧
  decode [0x13#8, 0x01#8, 0x12#8, 0x34#8] = .ok (.stuff [0x1234#16], [])

/-- R73: a reserved encoding is refused by name: a reserved operation byte, a selector of 2 or more, a
register number of 8 or more, and a record cut short. Which refusal is reported is the model's choice
where the record is of another agent's class too (R159; log 7) or where a reserved selector's record
is also cut short (log 17); the pending list is the model's (log 4). -/
def Obligations.ReservedEncodingsAreRefused : Prop :=
  ∀ (s : State) (a : Agent) (bs : List Byte) (rest : List Input), s.pending = .record a bs :: rest →
    (∀ op tail, bs = op :: tail → reservedByte op → step s = .refused (.reservedOperation op)) ∧
    (∀ sel tail, bs = 0x05#8 :: sel :: tail → 2 ≤ sel.toNat →
      step s = .refused (.reservedSelector sel)) ∧
    (∀ reg tail, bs = 0x06#8 :: reg :: tail → 8 ≤ reg.toNat →
      step s = .refused (.reservedRegister reg)) ∧
    (∀ (i : Instr) (more : List Byte), i.wellFormed = true → i.frameWord = none → more ≠ [] →
      encode i = bs ++ more → step s = .refused .truncatedRecord)

/-- R73: the meanings of the five reserved rows refuse, naming the operation byte. -/
def Obligations.ReservedRowsRefuse : Prop :=
  ∀ (s : State) (index : BitVec 3) (low : BitVec 1) (op : Byte),
    exec .reserved07 s = .refused (.reservedOperation 0x07#8) ∧
    exec (.reserved0B0F index) s = .refused (.reservedOperation (0x08#8 ||| index.setWidth 8)) ∧
    exec (.reserved1617 low) s = .refused (.reservedOperation (0x16#8 ||| low.setWidth 8)) ∧
    exec (.reservedClass11 index) s = .refused (.reservedOperation (0x18#8 ||| index.setWidth 8)) ∧
    exec (.reservedHighBits op) s = .refused (.reservedOperation op)

/-- R9, R55: a frame word is data and none of the sixteen operations; the model refuses one offered in
the place of an operation (log 9). -/
def Obligations.FrameWordsAreNoOperations : Prop :=
  ∀ (s : State) (w : Word) (m : BitVec 1) (r : BitVec 7) (h l : Byte),
    exec (.wAddress w) s = .refused (.frameWordIsNoOperation .address) ∧
    exec (.wHeader m r l) s = .refused (.frameWordIsNoOperation .header) ∧
    exec (.wPayload h l) s = .refused (.frameWordIsNoOperation .payload) ∧
    exec (.wChecksum w) s = .refused (.frameWordIsNoOperation .checksum) ∧
    exec .wTerminator s = .refused (.frameWordIsNoOperation .terminator)

/-! Steps. -/

/-- R159: an agent issues the operations of its own class alone: a record of its class runs, one of
another class is refused. -/
def Obligations.AgentsIssueOnlyTheirClass : Prop :=
  ∀ (s : State) (a : Agent) (op : Byte) (bs tail : List Byte) (i : Instr) (rest : List Input),
    s.pending = .record a (op :: bs) :: rest → decode (op :: bs) = .ok (i, tail) →
    ¬ reservedByte op →
    ((op.extractLsb' 3 2).toNat ≠ classOf a → step s = .refused (.wrongAgent a)) ∧
    ((op.extractLsb' 3 2).toNat = classOf a →
      step s = exec i { s with pending := pendingAfter a tail rest })

/-- A step runs the decoded input as one operation, with the input consumed (R10, R45; log 4, log 6);
with nothing pending it changes nothing (R163). The clause on a pending bare frame word is the model's
choice: a frame word as an input is its own device (log 9). -/
def Obligations.StepRunsTheDecodedInput : Prop :=
  ∀ (s : State) (rest : List Input),
    (∀ (a : Agent) (bs tail : List Byte) (i : Instr), s.pending = .record a bs :: rest →
      decode bs = .ok (i, tail) → mayIssue a i = true →
      step s = exec i { s with pending := pendingAfter a tail rest }) ∧
    (∀ (role : FrameRole) (w : Word) (i : Instr), s.pending = .frameWord role w :: rest →
      decodeFrameWord role w = some i → step s = exec i { s with pending := rest }) ∧
    (s.pending = [] → step s = .next s)

/-- R13, R48 (a): every element of state has the writers of the state table and no others; the working
registers of R29, R30 change only in the operations that use their component (log 3, log 16). -/
def Obligations.EveryElementHasItsWritersOnly : Prop :=
  ∀ (i : Instr) (s t : State), exec i s = .next t → i ≠ .reset →
    (t.selfAddr ≠ s.selfAddr → ∃ v, i = .cfgSelf v) ∧
    (t.peerAddr ≠ s.peerAddr → ∃ v, i = .cfgPeer v) ∧
    (t.bcastAddr ≠ s.bcastAddr → ∃ v, i = .cfgBcast v) ∧
    (t.reserve ≠ s.reserve → ∃ v, i = .cfgReserve v) ∧
    (t.busy ≠ s.busy → (∃ sel p, i = .send sel p) ∨ i = .evTxComplete) ∧
    (t.rxState ≠ s.rxState → (∃ img, i = .evFrameBoundary img) ∨ i = .evRxOverrun) ∧
    (t.sent ≠ s.sent → i = .evTxComplete) ∧
    (t.received ≠ s.received → ∃ img, i = .evFrameBoundary img) ∧
    (t.missed ≠ s.missed → ∃ img, i = .evFrameBoundary img) ∧
    ((t.txu ≠ s.txu ∨ t.txs ≠ s.txs ∨ t.txsLen ≠ s.txsLen) → ∃ sel p, i = .send sel p) ∧
    ((t.rxs ≠ s.rxs ∨ t.rxu ≠ s.rxu ∨ t.rxuBits ≠ s.rxuBits) → ∃ img, i = .evFrameBoundary img) ∧
    (t.crc ≠ s.crc → (∃ byte reg, i = .crc16Update byte reg) ∨ (∃ bs, i = .crc16 bs) ∨
      (∃ dest reserve p, i = .encode dest reserve p) ∨ (∃ self bc bs, i = .validate self bc bs) ∨
      (∃ sel p, i = .send sel p) ∨ ∃ img, i = .evFrameBoundary img) ∧
    (t.stuffer ≠ s.stuffer → (∃ ws, i = .stuff ws) ∨ ∃ sel p, i = .send sel p) ∧
    (t.unstuffer ≠ s.unstuffer → (∃ bs, i = .unstuff bs) ∨ ∃ img, i = .evFrameBoundary img)

/-- R141, R142: the two state machines' transitions: only `SEND` enters TX Pending, only
`EV_TX_COMPLETE` and `RESET` leave it; the receive side is Idle behind every handler. -/
def Obligations.StateMachineTransitions : Prop :=
  ∀ (i : Instr) (s t : State), exec i s = .next t →
    t.busy = (match i with
      | .send _ _ => true
      | .evTxComplete => false
      | .reset => false
      | _ => s.busy) ∧
    t.rxState = (match i with
      | .evFrameBoundary _ => .idle
      | .evRxOverrun => .idle
      | .reset => .idle
      | _ => s.rxState)

/-! Runs. -/

/-- R143 (a), (b), (c), for a run with no `RESET` in it and a transport that delivers
`EV_TX_COMPLETE` only for an outstanding `begin_transmit`, from any state (so from the one `RESET`
leaves): the counters, modulo `2^32`, and the outputs account for the operations. -/
def Obligations.CountersAccountForTheRun : Prop :=
  ∀ (is : List Instr) (s t : State), (∀ i ∈ is, i ≠ .reset) → transportHonours is s →
    execAll is s = .next t →
    t.sent + flag t.busy = s.sent + flag s.busy + BitVec.ofNat 32 (okCount is s) ∧
    t.received + t.missed = s.received + s.missed + BitVec.ofNat 32 (is.countP isFrameBoundary) ∧
    t.trace.countP isBeginTransmit = s.trace.countP isBeginTransmit + okCount is s ∧
    t.sent + BitVec.ofNat 32 (s.trace.count .txCursorReset) =
      s.sent + BitVec.ofNat 32 (t.trace.count .txCursorReset) ∧
    t.trace.count .rearmReceive =
      s.trace.count .rearmReceive + is.countP isFrameBoundary + is.countP isOverrun

/-- R143 (d), (e), R49: from a `begin_transmit` until `EV_TX_COMPLETE` or `RESET` the gate stays set,
the transmit buffers do not change and there is no other `begin_transmit`. -/
def Obligations.FrameInFlightIsUntouched : Prop :=
  ∀ (is : List Instr) (s t : State), s.busy = true → (∀ i ∈ is, i ≠ .reset ∧ i ≠ .evTxComplete) →
    execAll is s = .next t →
    t.busy = true ∧ t.txu = s.txu ∧ t.txs = s.txs ∧ t.txsLen = s.txsLen ∧
    t.trace.countP isBeginTransmit = s.trace.countP isBeginTransmit

/-- The invariant holds at power-up. -/
def Obligations.ResetStateMeetsTheInvariant : Prop := State.reset.Inv

/-- Every step keeps the invariant: canonical buffers of the sizes of R25 to R28, `TXS_LEN` and
`RXU_BITS` in range, a frame in flight that ends with the terminator, the receive side Idle, the
working registers in the ranges of R30 (with R54, R102, R112). -/
def Obligations.EveryStepKeepsTheInvariant : Prop :=
  ∀ s t : State, s.Inv → step s = .next t → t.Inv

/-- R76: `CFG_IDENTITY` is its three setters; `WAIT_IDLE` reads on exactly while the gate is set;
`SEND_BLOCKING` behind any number of polls is the `SEND`. -/
def Obligations.PseudoOperationsExpand : Prop :=
  ∀ (s : State) (polls : Nat) (sel : Dest) (p : List Byte) (self peer bcast : Word),
    execAll (Pseudo.expand polls (.cfgIdentity self peer bcast)) s =
      .next { s with selfAddr := self, peerAddr := peer, bcastAddr := bcast, result := .nothing } ∧
    (∃ t, execAll (Pseudo.expand 1 .waitIdle) s = .next t ∧ pollAgain t.result = s.busy) ∧
    execAll (Pseudo.expand polls (.sendBlocking sel p)) s = exec (.send sel p) s

end
end

