-- ==== Sys2Proof/Laws/Bits.lean ====
section
/-! SUPPORT. Byte order and bit order: lengths, and the bytes and bits of words built from parts. -/

namespace Sys2Proof

/-- The sizes as numerals (00_scope.md rule R8). -/
@[simp] theorem Config.maxStuffedPacketLenBytes_eq : Config.maxStuffedPacketLenBytes = 36 := rfl

@[simp] theorem Config.maxPacketLenWords_eq : Config.maxPacketLenWords = 12 := rfl

/-- The bits of a word built from two bytes. -/
theorem getLsbD_cat (h l : Byte) (k : Nat) :
    (cat h l).getLsbD k = if k < 8 then l.getLsbD k else h.getLsbD (k - 8) := by
  show ((h ++ l : BitVec (8 + 8))).getLsbD k = _
  rw [BitVec.getLsbD_append]

@[simp] theorem hi_cat (h l : Byte) : hi (cat h l) = h := by
  apply BitVec.eq_of_getLsbD_eq
  intro k hk
  simp [hi, getLsbD_cat, hk]

@[simp] theorem lo_cat (h l : Byte) : lo (cat h l) = l := by
  apply BitVec.eq_of_getLsbD_eq
  intro k hk
  simp [lo, getLsbD_cat, hk]

@[simp] theorem cat_hi_lo (w : Word) : cat (hi w) (lo w) = w := by
  apply BitVec.eq_of_getLsbD_eq
  intro k hk
  rw [getLsbD_cat]
  by_cases h : k < 8
  · simp [lo, h]
  · have h8 : k - 8 < 8 := by omega
    simp [hi, h, h8, show 8 + (k - 8) = k by omega]

@[simp] theorem wordsToBytes_nil : wordsToBytes [] = [] := rfl

@[simp] theorem wordsToBytes_cons (w : Word) (ws : List Word) :
    wordsToBytes (w :: ws) = hi w :: lo w :: wordsToBytes ws := rfl

@[simp] theorem wordsToBytes_append (xs ys : List Word) :
    wordsToBytes (xs ++ ys) = wordsToBytes xs ++ wordsToBytes ys := by
  simp [wordsToBytes]

@[simp] theorem wordsToBytes_length (ws : List Word) : (wordsToBytes ws).length = 2 * ws.length := by
  induction ws with
  | nil => rfl
  | cons w ws ih => simp [ih]; omega

/-- Words written as bytes are read back. -/
@[simp] theorem wordsOfBytes_wordsToBytes (ws : List Word) : wordsOfBytes (wordsToBytes ws) = ws := by
  induction ws with
  | nil => rfl
  | cons w ws ih => simp [wordsOfBytes, ih]

/-- A byte stream of even length is the bytes of its words (30_encoding.md rule R59). -/
theorem wordsToBytes_wordsOfBytes : ∀ (bs : List Byte), bs.length % 2 = 0 →
    wordsToBytes (wordsOfBytes bs) = bs
  | [], _ => rfl
  | [_], h => by simp at h
  | h :: l :: rest, hl => by
    have : rest.length % 2 = 0 := by simp at hl; omega
    simp [wordsOfBytes, wordsToBytes_wordsOfBytes rest this]

@[simp] theorem wordsOfBytes_length : ∀ bs : List Byte, (wordsOfBytes bs).length = bs.length / 2
  | [] => rfl
  | [_] => by simp [wordsOfBytes]
  | _ :: _ :: rest => by simp [wordsOfBytes, wordsOfBytes_length rest]; omega

@[simp] theorem wordBits_length (w : Word) : (wordBits w).length = 16 := by simp [wordBits]

@[simp] theorem byteBits_length (b : Byte) : (byteBits b).length = 8 := by simp [byteBits]

@[simp] theorem packWords_length (n : Nat) (bits : List Bool) : (packWords n bits).length = n := by
  simp [packWords]

@[simp] theorem packBytes_length (n : Nat) (bits : List Bool) : (packBytes n bits).length = n := by
  simp [packBytes]

@[simp] theorem firstBits_length (n : Nat) (bits : List Bool) : (firstBits n bits).length = n := by
  simp [firstBits]

end Sys2Proof
end

