-- ==== Sys2Proof/Laws/Decode.lean ====
section
/-! SUPPORT. The decoder: which operand decoder each operation byte selects, and what the operand
decoders read back. -/

namespace Sys2Proof

/-- Operand bytes that are all there are taken off. -/
@[simp] theorem takeBytes_append (p tail : List Byte) : takeBytes p.length (p ++ tail) = .ok (p, tail) := by
  simp [takeBytes]

/-- What was taken off is the head of the bytes. -/
theorem takeBytes_ok {n : Nat} {bs p tail : List Byte} (h : takeBytes n bs = .ok (p, tail)) :
    p.length = n ∧ p ++ tail = bs := by
  unfold takeBytes at h
  split at h
  · rename_i hn
    cases h
    exact ⟨hn, List.take_append_drop n bs⟩
  · cases h

/-- A counted operand is read back. -/
theorem decodeCounted_append (scale n : Nat) (f : List Byte → Instr) (p tail : List Byte) (hn : n ≤ 255)
    (hp : p.length = scale * n) :
    decodeCounted scale f (countByte n :: (p ++ tail)) = .ok (f p, tail) := by
  have hc : scale * (countByte n).toNat = p.length := by
    simp [countByte, hp, show n % 256 = n by omega]
  simp [decodeCounted, hc, takeBytes_append, Except.map]

theorem decodeSelector_number (d : Dest) : decodeSelector d.number = .ok d := by cases d <;> rfl

theorem decodeRegister_number (r : RegName) : decodeRegister r.number = .ok r := by cases r <;> rfl

/-! One operation byte each (30_encoding.md rules R67, R68). -/

theorem decode_reset (bs : List Byte) : decode (0x00#8 :: bs) = .ok (.reset, bs) := rfl
theorem decode_cfgSelf (bs : List Byte) : decode (0x01#8 :: bs) = decodeWordOperand .cfgSelf bs := rfl
theorem decode_cfgPeer (bs : List Byte) : decode (0x02#8 :: bs) = decodeWordOperand .cfgPeer bs := rfl
theorem decode_cfgBcast (bs : List Byte) : decode (0x03#8 :: bs) = decodeWordOperand .cfgBcast bs := rfl
theorem decode_cfgReserve (bs : List Byte) : decode (0x04#8 :: bs) = decodeByteOperand .cfgReserve bs := rfl
theorem decode_send (bs : List Byte) : decode (0x05#8 :: bs) = decodeSend bs := rfl
theorem decode_rd (bs : List Byte) : decode (0x06#8 :: bs) = decodeRd bs := rfl
theorem decode_reserved07 (bs : List Byte) : decode (0x07#8 :: bs) = .ok (.reserved07, bs) := rfl
theorem decode_evTxComplete (bs : List Byte) : decode (0x08#8 :: bs) = .ok (.evTxComplete, bs) := rfl
theorem decode_evFrameBoundary (bs : List Byte) : decode (0x09#8 :: bs) = decodeFrameBoundary bs := rfl
theorem decode_evRxOverrun (bs : List Byte) : decode (0x0A#8 :: bs) = .ok (.evRxOverrun, bs) := rfl
theorem decode_crc16Update (bs : List Byte) : decode (0x10#8 :: bs) = decodeCrcUpdate bs := rfl
theorem decode_crc16 (bs : List Byte) : decode (0x11#8 :: bs) = decodeCounted 1 .crc16 bs := rfl
theorem decode_encode (bs : List Byte) : decode (0x12#8 :: bs) = decodeEncode bs := rfl
theorem decode_stuff (bs : List Byte) :
    decode (0x13#8 :: bs) = decodeCounted 2 (fun p => .stuff (wordsOfBytes p)) bs := rfl
theorem decode_unstuff (bs : List Byte) : decode (0x14#8 :: bs) = decodeCounted 1 .unstuff bs := rfl
theorem decode_validate (bs : List Byte) : decode (0x15#8 :: bs) = decodeValidate bs := rfl

end Sys2Proof
end

