-- ==== Sys2Proof/Laws/Frames.lean ====
section
/-! SUPPORT. The datapath functions: what each returns in size and range, once for all callers. -/

namespace Sys2Proof.Machine

/-! The Checksum Engine. -/

/-- One byte shifts the byte register empty (40_crc.md rule R78). -/
@[simp] theorem CrcEngine.feed_byte (c : CrcEngine) (b : Byte) : (c.feed b).byte = 0#8 := by
  simp only [CrcEngine.feed, CrcEngine.bitSteps, CrcEngine.bitStep]
  apply BitVec.eq_of_getLsbD_eq
  intro k hk
  simp [hk]

/-- What a byte does to the register does not depend on the byte register before it. -/
theorem CrcEngine.feed_reg (c : CrcEngine) (b : Byte) : (c.feed b).reg = crcUpdate b c.reg := rfl

/-- The register after a byte sequence is the checksum (40_crc.md rule R80). -/
@[simp] theorem CrcEngine.run_reg (c : CrcEngine) (bs : List Byte) : (c.run bs).reg = crcOf bs := by
  suffices h : ∀ e : CrcEngine, (bs.foldl CrcEngine.feed e).reg =
      bs.foldl (fun r b => crcUpdate b r) e.reg from h _
  induction bs with
  | nil => intro e; rfl
  | cons b bs ih => intro e; rw [List.foldl_cons, ih, CrcEngine.feed_reg, List.foldl_cons]

@[simp] theorem crcOf_nil : crcOf [] = 0xFFFF#16 := rfl

/-- The checksum of a longer sequence goes on from the register of the shorter one. -/
theorem crcOf_append (xs ys : List Byte) :
    crcOf (xs ++ ys) = ys.foldl (fun r b => crcUpdate b r) (crcOf xs) := by
  simp [crcOf, List.foldl_append]

/-! The frame. -/

/-- An encoded frame has `L/2 + 4` words (30_encoding.md rule R56). -/
@[simp] theorem encodeFrame_length (dest : Word) (reserve : Byte) (p : List Byte) :
    (encodeFrame dest reserve p).length = p.length / 2 + 4 := by
  simp [encodeFrame]

/-- An encoded frame ends with the terminator (41_frame_encode.md rule R90). -/
theorem encodeFrame_dropLast (dest : Word) (reserve : Byte) (p : List Byte) :
    encodeFrame dest reserve p = (encodeFrame dest reserve p).dropLast ++ [0xFFFF#16] := by
  have h : encodeFrame dest reserve p =
      (dest :: settledHeader dest reserve p :: wordsOfBytes p ++
        [frameChecksum dest p (settledHeader dest reserve p)]) ++ [0xFFFF#16] := by
    simp [encodeFrame]
  rw [h, List.dropLast_concat]

/-- The payload contract as the rules word it. -/
theorem payloadLegal_iff (p : List Byte) : payloadLegal p = true ↔ p.length % 2 = 0 ∧ p.length ≤ 16 := by
  simp [payloadLegal]

/-! Runs. -/

@[simp] theorem Run.see_last (r : Run) (b : Bool) : (r.see b).last = some b := rfl

@[simp] theorem Run.broken_last (b : Bool) : (Run.broken b).last = some (!b) := rfl

@[simp] theorem Run.broken_len (b : Bool) : (Run.broken b).len = 1 := rfl

/-- A bit lengthens a run by at most one, and a run has at least one bit. -/
theorem Run.see_len (r : Run) (b : Bool) : 1 ≤ (r.see b).len ∧ (r.see b).len ≤ r.len + 1 := by
  unfold Run.see
  by_cases h : r.last = some b <;> simp [h]

/-- The size of what one data bit emits, and the run it leaves: a stuff bit pays for four bits of
run. -/
theorem stuffBit_spec (r : Run) (b : Bool) (hr : 1 ≤ r.len ∧ r.len ≤ 4) :
    1 ≤ (stuffBit r b).1.length ∧
    4 * (stuffBit r b).1.length + (stuffBit r b).2.len ≤ 5 + r.len ∧
    1 ≤ (stuffBit r b).2.len ∧ (stuffBit r b).2.len ≤ 4 := by
  have := r.see_len b
  unfold stuffBit
  by_cases h : (r.see b).len = Config.stuffRun
  · have h5 : (r.see b).len = 5 := h
    simp [h]; omega
  · have h5 : (r.see b).len ≠ 5 := h
    simp [h]; omega

/-- The size of what a string of data bits emits, and the run it leaves. -/
theorem stuffBits_spec (r : Run) (bits : List Bool) (hr : 1 ≤ r.len ∧ r.len ≤ 4) :
    bits.length ≤ (stuffBits r bits).1.length ∧
    4 * (stuffBits r bits).1.length + (stuffBits r bits).2.len ≤ 5 * bits.length + r.len ∧
    1 ≤ (stuffBits r bits).2.len ∧ (stuffBits r bits).2.len ≤ 4 := by
  induction bits generalizing r with
  | nil => simp [stuffBits]; omega
  | cons b bits ih =>
    have h₁ := stuffBit_spec r b hr
    have h₂ := ih (stuffBit r b).2 h₁.2.2
    simp only [stuffBits, List.length_append, List.length_cons]
    omega

@[simp] theorem dataBits_length (ws : List Word) : (dataBits ws).length = 16 * ws.length := by
  induction ws with
  | nil => rfl
  | cons w ws ih =>
    have : dataBits (w :: ws) = wordBits w ++ dataBits ws := rfl
    simp [this, ih]; omega

/-- The scan stays within the input array (42_bit_stuffer.md rule R99). -/
theorem scannedWords_length (u : List Word) : (scannedWords u).length ≤ 12 := by
  have h₁ := (List.takeWhile_sublist (l := u.take Config.maxPacketLenWords)
    (fun w => w != Config.termWord)).length_le
  have h₂ : (u.take Config.maxPacketLenWords).length ≤ 12 := List.length_take_le ..
  exact h₁.trans h₂

/-- Region and pad fill whole words, at most 15 (42_bit_stuffer.md rules R101, R102). -/
theorem paddedRegion_length (u : List Word) :
    (paddedRegion Config.stuffInitLast u).length % 16 = 0 ∧
    (paddedRegion Config.stuffInitLast u).length ≤ 240 := by
  have hs := stuffBits_spec (Run.start Config.stuffInitLast) (dataBits (scannedWords u))
    ⟨le_refl 1, by decide⟩
  have hn := scannedWords_length u
  have h1 : (Run.start Config.stuffInitLast).len = 1 := rfl
  rw [dataBits_length] at hs
  simp only [paddedRegion, stuffedRegion, List.length_append, List.length_replicate, padLength]
  omega

/-- `STUFF` returns at least the terminator and at most 16 words (42_bit_stuffer.md rule R94). -/
theorem stuffWords_length (u : List Word) :
    1 ≤ (stuffWords u).length ∧ (stuffWords u).length ≤ 16 := by
  have := paddedRegion_length u
  simp only [stuffWords, stuffFrom, List.length_append, packWords_length, List.length_singleton]
  omega

/-- `STUFF` returns the terminator last (42_bit_stuffer.md rule R101). -/
theorem stuffWords_terminator (u : List Word) :
    (stuffWords u)[(stuffWords u).length - 1]? = some 0xFFFF#16 := by
  simp [stuffWords, stuffFrom]

/-- The Bit Stuffer's registers after `STUFF` are in their ranges (10_state.md rule R30). -/
theorem stufferAfter_ranges (u : List Word) :
    (1 ≤ (stufferAfter u).runLen ∧ (stufferAfter u).runLen ≤ 5) ∧
    (stufferAfter u).wordIndex ≤ 12 ∧ (stufferAfter u).bitIndex ≤ 15 ∧
    (stufferAfter u).outBits ≤ 288 := by
  have hs := stuffBits_spec (Run.start Config.stuffInitLast) (dataBits (scannedWords u))
    ⟨le_refl 1, by decide⟩
  have hp := paddedRegion_length u
  have hn := scannedWords_length u
  simp only [stufferAfter]
  omega

/-- One input bit emits at most one bit, and the run it leaves. -/
theorem unstuffBit_spec (u : SkipRun) (b : Bool) (hu : 1 ≤ u.run.len ∧ u.run.len ≤ 4) :
    (unstuffBit u b).1.length ≤ 1 ∧
    1 ≤ (unstuffBit u b).2.run.len ∧ (unstuffBit u b).2.run.len ≤ 4 := by
  have := u.run.see_len b
  unfold unstuffBit
  by_cases hk : u.skip = true
  · simp [hk, hu]
  · by_cases h : (u.run.see b).len = Config.stuffRun
    · simp [hk, h]
    · have h5 : (u.run.see b).len ≠ 5 := h
      simp [hk, h]; omega

/-- A string of input bits emits at most as many bits, and the run it leaves. -/
theorem unstuffBits_spec (u : SkipRun) (bits : List Bool) (hu : 1 ≤ u.run.len ∧ u.run.len ≤ 4) :
    (unstuffBits u bits).1.length ≤ bits.length ∧
    1 ≤ (unstuffBits u bits).2.run.len ∧ (unstuffBits u bits).2.run.len ≤ 4 := by
  induction bits generalizing u with
  | nil => exact ⟨Nat.le_refl _, hu⟩
  | cons b bits ih =>
    have h₁ := unstuffBit_spec u b hu
    have h₂ := ih (unstuffBit u b).2 h₁.2
    simp only [unstuffBits, List.length_append, List.length_cons]
    omega

/-- The scan stays within the input array (43_bit_unstuffer.md rule R110). -/
theorem scannedBytes_length (bs : List Byte) : (scannedBytes bs).length ≤ 36 := by
  have h₁ := (List.takeWhile_sublist (l := bs.take Config.maxStuffedPacketLenBytes)
    (fun b => b != Config.termByte)).length_le
  have h₂ : (bs.take Config.maxStuffedPacketLenBytes).length ≤ 36 := List.length_take_le ..
  exact h₁.trans h₂

@[simp] theorem flatMap_byteBits_length (bs : List Byte) : (bs.flatMap byteBits).length = 8 * bs.length := by
  induction bs with
  | nil => rfl
  | cons b bs ih => simp [ih]; omega

/-- The Bit Unstuffer's registers after `UNSTUFF`, and its bit count, are in their ranges
(10_state.md rule R30, 43_bit_unstuffer.md rule R112). -/
theorem unstufferAfter_ranges (bs : List Byte) :
    (1 ≤ (unstufferAfter bs).runLen ∧ (unstufferAfter bs).runLen ≤ 5) ∧
    (unstufferAfter bs).byteIndex ≤ 36 ∧ (unstufferAfter bs).bitIndex ≤ 7 ∧
    (unstufferAfter bs).outBits ≤ 288 ∧ unstuffCount bs ≤ 288 := by
  have hs := unstuffBits_spec (SkipRun.start Config.stuffInitLast) ((scannedBytes bs).flatMap byteBits)
    ⟨le_refl 1, by decide⟩
  have hn := scannedBytes_length bs
  rw [flatMap_byteBits_length] at hs
  have hc : unstuffCount bs ≤ 288 := by
    simp only [unstuffCount, unstuffedBits, unstuffScan]; omega
  simp only [unstufferAfter, unstuffScan]
  omega

@[simp] theorem unstuffBytes_length (bs : List Byte) : (unstuffBytes bs).length = 36 := by
  simp [unstuffBytes]

/-- A short operand list is completed to exactly `n` elements (30_encoding.md rule R71). -/
@[simp] theorem fillTo_length {α : Type} (n : Nat) (fill : α) (xs : List α) :
    (fillTo n fill xs).length = n := by
  simp [fillTo]; omega

end Sys2Proof.Machine
end

