-- ==== Sys2Proof/Laws/State.lean ====
section
/-! SUPPORT. Every named update of State, field by field: one lemma for each field and update, so that
no proof unfolds a record update. -/

namespace Sys2Proof.Machine

/-! `return`. -/

@[simp] theorem State.respond_selfAddr (s : State) (r : Result) : (s.respond r).selfAddr = s.selfAddr := rfl
@[simp] theorem State.respond_peerAddr (s : State) (r : Result) : (s.respond r).peerAddr = s.peerAddr := rfl
@[simp] theorem State.respond_bcastAddr (s : State) (r : Result) : (s.respond r).bcastAddr = s.bcastAddr := rfl
@[simp] theorem State.respond_reserve (s : State) (r : Result) : (s.respond r).reserve = s.reserve := rfl
@[simp] theorem State.respond_busy (s : State) (r : Result) : (s.respond r).busy = s.busy := rfl
@[simp] theorem State.respond_rxState (s : State) (r : Result) : (s.respond r).rxState = s.rxState := rfl
@[simp] theorem State.respond_sent (s : State) (r : Result) : (s.respond r).sent = s.sent := rfl
@[simp] theorem State.respond_received (s : State) (r : Result) : (s.respond r).received = s.received := rfl
@[simp] theorem State.respond_missed (s : State) (r : Result) : (s.respond r).missed = s.missed := rfl
@[simp] theorem State.respond_txu (s : State) (r : Result) : (s.respond r).txu = s.txu := rfl
@[simp] theorem State.respond_txs (s : State) (r : Result) : (s.respond r).txs = s.txs := rfl
@[simp] theorem State.respond_txsLen (s : State) (r : Result) : (s.respond r).txsLen = s.txsLen := rfl
@[simp] theorem State.respond_rxs (s : State) (r : Result) : (s.respond r).rxs = s.rxs := rfl
@[simp] theorem State.respond_rxu (s : State) (r : Result) : (s.respond r).rxu = s.rxu := rfl
@[simp] theorem State.respond_rxuBits (s : State) (r : Result) : (s.respond r).rxuBits = s.rxuBits := rfl
@[simp] theorem State.respond_crc (s : State) (r : Result) : (s.respond r).crc = s.crc := rfl
@[simp] theorem State.respond_stuffer (s : State) (r : Result) : (s.respond r).stuffer = s.stuffer := rfl
@[simp] theorem State.respond_unstuffer (s : State) (r : Result) : (s.respond r).unstuffer = s.unstuffer := rfl
@[simp] theorem State.respond_pending (s : State) (r : Result) : (s.respond r).pending = s.pending := rfl
@[simp] theorem State.respond_trace (s : State) (r : Result) : (s.respond r).trace = s.trace := rfl
@[simp] theorem State.respond_result (s : State) (r : Result) : (s.respond r).result = r := rfl
@[simp] theorem State.respond_rxVerdict (s : State) (r : Result) : (s.respond r).rxVerdict = s.rxVerdict := rfl
@[simp] theorem State.respond_epoch (s : State) (r : Result) : (s.respond r).epoch = s.epoch := rfl

/-! `emit`. -/

@[simp] theorem State.emit_selfAddr (s : State) (o : Output) : (s.emit o).selfAddr = s.selfAddr := rfl
@[simp] theorem State.emit_peerAddr (s : State) (o : Output) : (s.emit o).peerAddr = s.peerAddr := rfl
@[simp] theorem State.emit_bcastAddr (s : State) (o : Output) : (s.emit o).bcastAddr = s.bcastAddr := rfl
@[simp] theorem State.emit_reserve (s : State) (o : Output) : (s.emit o).reserve = s.reserve := rfl
@[simp] theorem State.emit_busy (s : State) (o : Output) : (s.emit o).busy = s.busy := rfl
@[simp] theorem State.emit_rxState (s : State) (o : Output) : (s.emit o).rxState = s.rxState := rfl
@[simp] theorem State.emit_sent (s : State) (o : Output) : (s.emit o).sent = s.sent := rfl
@[simp] theorem State.emit_received (s : State) (o : Output) : (s.emit o).received = s.received := rfl
@[simp] theorem State.emit_missed (s : State) (o : Output) : (s.emit o).missed = s.missed := rfl
@[simp] theorem State.emit_txu (s : State) (o : Output) : (s.emit o).txu = s.txu := rfl
@[simp] theorem State.emit_txs (s : State) (o : Output) : (s.emit o).txs = s.txs := rfl
@[simp] theorem State.emit_txsLen (s : State) (o : Output) : (s.emit o).txsLen = s.txsLen := rfl
@[simp] theorem State.emit_rxs (s : State) (o : Output) : (s.emit o).rxs = s.rxs := rfl
@[simp] theorem State.emit_rxu (s : State) (o : Output) : (s.emit o).rxu = s.rxu := rfl
@[simp] theorem State.emit_rxuBits (s : State) (o : Output) : (s.emit o).rxuBits = s.rxuBits := rfl
@[simp] theorem State.emit_crc (s : State) (o : Output) : (s.emit o).crc = s.crc := rfl
@[simp] theorem State.emit_stuffer (s : State) (o : Output) : (s.emit o).stuffer = s.stuffer := rfl
@[simp] theorem State.emit_unstuffer (s : State) (o : Output) : (s.emit o).unstuffer = s.unstuffer := rfl
@[simp] theorem State.emit_pending (s : State) (o : Output) : (s.emit o).pending = s.pending := rfl
@[simp] theorem State.emit_trace (s : State) (o : Output) : (s.emit o).trace = s.trace ++ [o] := rfl
@[simp] theorem State.emit_result (s : State) (o : Output) : (s.emit o).result = s.result := rfl
@[simp] theorem State.emit_rxVerdict (s : State) (o : Output) : (s.emit o).rxVerdict = s.rxVerdict := rfl
@[simp] theorem State.emit_epoch (s : State) (o : Output) : (s.emit o).epoch = s.epoch := rfl

/-! `SENT + 1`. -/

@[simp] theorem State.countSent_selfAddr (s : State) : (s.countSent).selfAddr = s.selfAddr := rfl
@[simp] theorem State.countSent_peerAddr (s : State) : (s.countSent).peerAddr = s.peerAddr := rfl
@[simp] theorem State.countSent_bcastAddr (s : State) : (s.countSent).bcastAddr = s.bcastAddr := rfl
@[simp] theorem State.countSent_reserve (s : State) : (s.countSent).reserve = s.reserve := rfl
@[simp] theorem State.countSent_busy (s : State) : (s.countSent).busy = s.busy := rfl
@[simp] theorem State.countSent_rxState (s : State) : (s.countSent).rxState = s.rxState := rfl
@[simp] theorem State.countSent_sent (s : State) : (s.countSent).sent = countUp s.sent := rfl
@[simp] theorem State.countSent_received (s : State) : (s.countSent).received = s.received := rfl
@[simp] theorem State.countSent_missed (s : State) : (s.countSent).missed = s.missed := rfl
@[simp] theorem State.countSent_txu (s : State) : (s.countSent).txu = s.txu := rfl
@[simp] theorem State.countSent_txs (s : State) : (s.countSent).txs = s.txs := rfl
@[simp] theorem State.countSent_txsLen (s : State) : (s.countSent).txsLen = s.txsLen := rfl
@[simp] theorem State.countSent_rxs (s : State) : (s.countSent).rxs = s.rxs := rfl
@[simp] theorem State.countSent_rxu (s : State) : (s.countSent).rxu = s.rxu := rfl
@[simp] theorem State.countSent_rxuBits (s : State) : (s.countSent).rxuBits = s.rxuBits := rfl
@[simp] theorem State.countSent_crc (s : State) : (s.countSent).crc = s.crc := rfl
@[simp] theorem State.countSent_stuffer (s : State) : (s.countSent).stuffer = s.stuffer := rfl
@[simp] theorem State.countSent_unstuffer (s : State) : (s.countSent).unstuffer = s.unstuffer := rfl
@[simp] theorem State.countSent_pending (s : State) : (s.countSent).pending = s.pending := rfl
@[simp] theorem State.countSent_trace (s : State) : (s.countSent).trace = s.trace := rfl
@[simp] theorem State.countSent_result (s : State) : (s.countSent).result = s.result := rfl
@[simp] theorem State.countSent_rxVerdict (s : State) : (s.countSent).rxVerdict = s.rxVerdict := rfl
@[simp] theorem State.countSent_epoch (s : State) : (s.countSent).epoch = s.epoch := rfl

/-! `RECEIVED + 1`. -/

@[simp] theorem State.countReceived_selfAddr (s : State) : (s.countReceived).selfAddr = s.selfAddr := rfl
@[simp] theorem State.countReceived_peerAddr (s : State) : (s.countReceived).peerAddr = s.peerAddr := rfl
@[simp] theorem State.countReceived_bcastAddr (s : State) : (s.countReceived).bcastAddr = s.bcastAddr := rfl
@[simp] theorem State.countReceived_reserve (s : State) : (s.countReceived).reserve = s.reserve := rfl
@[simp] theorem State.countReceived_busy (s : State) : (s.countReceived).busy = s.busy := rfl
@[simp] theorem State.countReceived_rxState (s : State) : (s.countReceived).rxState = s.rxState := rfl
@[simp] theorem State.countReceived_sent (s : State) : (s.countReceived).sent = s.sent := rfl
@[simp] theorem State.countReceived_received (s : State) : (s.countReceived).received = countUp s.received := rfl
@[simp] theorem State.countReceived_missed (s : State) : (s.countReceived).missed = s.missed := rfl
@[simp] theorem State.countReceived_txu (s : State) : (s.countReceived).txu = s.txu := rfl
@[simp] theorem State.countReceived_txs (s : State) : (s.countReceived).txs = s.txs := rfl
@[simp] theorem State.countReceived_txsLen (s : State) : (s.countReceived).txsLen = s.txsLen := rfl
@[simp] theorem State.countReceived_rxs (s : State) : (s.countReceived).rxs = s.rxs := rfl
@[simp] theorem State.countReceived_rxu (s : State) : (s.countReceived).rxu = s.rxu := rfl
@[simp] theorem State.countReceived_rxuBits (s : State) : (s.countReceived).rxuBits = s.rxuBits := rfl
@[simp] theorem State.countReceived_crc (s : State) : (s.countReceived).crc = s.crc := rfl
@[simp] theorem State.countReceived_stuffer (s : State) : (s.countReceived).stuffer = s.stuffer := rfl
@[simp] theorem State.countReceived_unstuffer (s : State) : (s.countReceived).unstuffer = s.unstuffer := rfl
@[simp] theorem State.countReceived_pending (s : State) : (s.countReceived).pending = s.pending := rfl
@[simp] theorem State.countReceived_trace (s : State) : (s.countReceived).trace = s.trace := rfl
@[simp] theorem State.countReceived_result (s : State) : (s.countReceived).result = s.result := rfl
@[simp] theorem State.countReceived_rxVerdict (s : State) : (s.countReceived).rxVerdict = s.rxVerdict := rfl
@[simp] theorem State.countReceived_epoch (s : State) : (s.countReceived).epoch = s.epoch := rfl

/-! `MISSED + 1`. -/

@[simp] theorem State.countMissed_selfAddr (s : State) : (s.countMissed).selfAddr = s.selfAddr := rfl
@[simp] theorem State.countMissed_peerAddr (s : State) : (s.countMissed).peerAddr = s.peerAddr := rfl
@[simp] theorem State.countMissed_bcastAddr (s : State) : (s.countMissed).bcastAddr = s.bcastAddr := rfl
@[simp] theorem State.countMissed_reserve (s : State) : (s.countMissed).reserve = s.reserve := rfl
@[simp] theorem State.countMissed_busy (s : State) : (s.countMissed).busy = s.busy := rfl
@[simp] theorem State.countMissed_rxState (s : State) : (s.countMissed).rxState = s.rxState := rfl
@[simp] theorem State.countMissed_sent (s : State) : (s.countMissed).sent = s.sent := rfl
@[simp] theorem State.countMissed_received (s : State) : (s.countMissed).received = s.received := rfl
@[simp] theorem State.countMissed_missed (s : State) : (s.countMissed).missed = countUp s.missed := rfl
@[simp] theorem State.countMissed_txu (s : State) : (s.countMissed).txu = s.txu := rfl
@[simp] theorem State.countMissed_txs (s : State) : (s.countMissed).txs = s.txs := rfl
@[simp] theorem State.countMissed_txsLen (s : State) : (s.countMissed).txsLen = s.txsLen := rfl
@[simp] theorem State.countMissed_rxs (s : State) : (s.countMissed).rxs = s.rxs := rfl
@[simp] theorem State.countMissed_rxu (s : State) : (s.countMissed).rxu = s.rxu := rfl
@[simp] theorem State.countMissed_rxuBits (s : State) : (s.countMissed).rxuBits = s.rxuBits := rfl
@[simp] theorem State.countMissed_crc (s : State) : (s.countMissed).crc = s.crc := rfl
@[simp] theorem State.countMissed_stuffer (s : State) : (s.countMissed).stuffer = s.stuffer := rfl
@[simp] theorem State.countMissed_unstuffer (s : State) : (s.countMissed).unstuffer = s.unstuffer := rfl
@[simp] theorem State.countMissed_pending (s : State) : (s.countMissed).pending = s.pending := rfl
@[simp] theorem State.countMissed_trace (s : State) : (s.countMissed).trace = s.trace := rfl
@[simp] theorem State.countMissed_result (s : State) : (s.countMissed).result = s.result := rfl
@[simp] theorem State.countMissed_rxVerdict (s : State) : (s.countMissed).rxVerdict = s.rxVerdict := rfl
@[simp] theorem State.countMissed_epoch (s : State) : (s.countMissed).epoch = s.epoch := rfl

/-! handler entry. -/

@[simp] theorem State.enterReceive_selfAddr (s : State) : (s.enterReceive).selfAddr = s.selfAddr := rfl
@[simp] theorem State.enterReceive_peerAddr (s : State) : (s.enterReceive).peerAddr = s.peerAddr := rfl
@[simp] theorem State.enterReceive_bcastAddr (s : State) : (s.enterReceive).bcastAddr = s.bcastAddr := rfl
@[simp] theorem State.enterReceive_reserve (s : State) : (s.enterReceive).reserve = s.reserve := rfl
@[simp] theorem State.enterReceive_busy (s : State) : (s.enterReceive).busy = s.busy := rfl
@[simp] theorem State.enterReceive_rxState (s : State) : (s.enterReceive).rxState = .pending := rfl
@[simp] theorem State.enterReceive_sent (s : State) : (s.enterReceive).sent = s.sent := rfl
@[simp] theorem State.enterReceive_received (s : State) : (s.enterReceive).received = s.received := rfl
@[simp] theorem State.enterReceive_missed (s : State) : (s.enterReceive).missed = s.missed := rfl
@[simp] theorem State.enterReceive_txu (s : State) : (s.enterReceive).txu = s.txu := rfl
@[simp] theorem State.enterReceive_txs (s : State) : (s.enterReceive).txs = s.txs := rfl
@[simp] theorem State.enterReceive_txsLen (s : State) : (s.enterReceive).txsLen = s.txsLen := rfl
@[simp] theorem State.enterReceive_rxs (s : State) : (s.enterReceive).rxs = s.rxs := rfl
@[simp] theorem State.enterReceive_rxu (s : State) : (s.enterReceive).rxu = s.rxu := rfl
@[simp] theorem State.enterReceive_rxuBits (s : State) : (s.enterReceive).rxuBits = s.rxuBits := rfl
@[simp] theorem State.enterReceive_crc (s : State) : (s.enterReceive).crc = s.crc := rfl
@[simp] theorem State.enterReceive_stuffer (s : State) : (s.enterReceive).stuffer = s.stuffer := rfl
@[simp] theorem State.enterReceive_unstuffer (s : State) : (s.enterReceive).unstuffer = s.unstuffer := rfl
@[simp] theorem State.enterReceive_pending (s : State) : (s.enterReceive).pending = s.pending := rfl
@[simp] theorem State.enterReceive_trace (s : State) : (s.enterReceive).trace = s.trace := rfl
@[simp] theorem State.enterReceive_result (s : State) : (s.enterReceive).result = s.result := rfl
@[simp] theorem State.enterReceive_rxVerdict (s : State) : (s.enterReceive).rxVerdict = s.rxVerdict := rfl
@[simp] theorem State.enterReceive_epoch (s : State) : (s.enterReceive).epoch = s.epoch := rfl

/-! handler return. -/

@[simp] theorem State.leaveReceive_selfAddr (s : State) : (s.leaveReceive).selfAddr = s.selfAddr := rfl
@[simp] theorem State.leaveReceive_peerAddr (s : State) : (s.leaveReceive).peerAddr = s.peerAddr := rfl
@[simp] theorem State.leaveReceive_bcastAddr (s : State) : (s.leaveReceive).bcastAddr = s.bcastAddr := rfl
@[simp] theorem State.leaveReceive_reserve (s : State) : (s.leaveReceive).reserve = s.reserve := rfl
@[simp] theorem State.leaveReceive_busy (s : State) : (s.leaveReceive).busy = s.busy := rfl
@[simp] theorem State.leaveReceive_rxState (s : State) : (s.leaveReceive).rxState = .idle := rfl
@[simp] theorem State.leaveReceive_sent (s : State) : (s.leaveReceive).sent = s.sent := rfl
@[simp] theorem State.leaveReceive_received (s : State) : (s.leaveReceive).received = s.received := rfl
@[simp] theorem State.leaveReceive_missed (s : State) : (s.leaveReceive).missed = s.missed := rfl
@[simp] theorem State.leaveReceive_txu (s : State) : (s.leaveReceive).txu = s.txu := rfl
@[simp] theorem State.leaveReceive_txs (s : State) : (s.leaveReceive).txs = s.txs := rfl
@[simp] theorem State.leaveReceive_txsLen (s : State) : (s.leaveReceive).txsLen = s.txsLen := rfl
@[simp] theorem State.leaveReceive_rxs (s : State) : (s.leaveReceive).rxs = s.rxs := rfl
@[simp] theorem State.leaveReceive_rxu (s : State) : (s.leaveReceive).rxu = s.rxu := rfl
@[simp] theorem State.leaveReceive_rxuBits (s : State) : (s.leaveReceive).rxuBits = s.rxuBits := rfl
@[simp] theorem State.leaveReceive_crc (s : State) : (s.leaveReceive).crc = s.crc := rfl
@[simp] theorem State.leaveReceive_stuffer (s : State) : (s.leaveReceive).stuffer = s.stuffer := rfl
@[simp] theorem State.leaveReceive_unstuffer (s : State) : (s.leaveReceive).unstuffer = s.unstuffer := rfl
@[simp] theorem State.leaveReceive_pending (s : State) : (s.leaveReceive).pending = s.pending := rfl
@[simp] theorem State.leaveReceive_trace (s : State) : (s.leaveReceive).trace = s.trace ++ [.rearmReceive] := rfl
@[simp] theorem State.leaveReceive_result (s : State) : (s.leaveReceive).result = s.result := rfl
@[simp] theorem State.leaveReceive_rxVerdict (s : State) : (s.leaveReceive).rxVerdict = s.rxVerdict := rfl
@[simp] theorem State.leaveReceive_epoch (s : State) : (s.leaveReceive).epoch = s.epoch := rfl

/-! `GATE.busy <- 1`. -/

@[simp] theorem State.setGate_selfAddr (s : State) : (s.setGate).selfAddr = s.selfAddr := rfl
@[simp] theorem State.setGate_peerAddr (s : State) : (s.setGate).peerAddr = s.peerAddr := rfl
@[simp] theorem State.setGate_bcastAddr (s : State) : (s.setGate).bcastAddr = s.bcastAddr := rfl
@[simp] theorem State.setGate_reserve (s : State) : (s.setGate).reserve = s.reserve := rfl
@[simp] theorem State.setGate_busy (s : State) : (s.setGate).busy = true := rfl
@[simp] theorem State.setGate_rxState (s : State) : (s.setGate).rxState = s.rxState := rfl
@[simp] theorem State.setGate_sent (s : State) : (s.setGate).sent = s.sent := rfl
@[simp] theorem State.setGate_received (s : State) : (s.setGate).received = s.received := rfl
@[simp] theorem State.setGate_missed (s : State) : (s.setGate).missed = s.missed := rfl
@[simp] theorem State.setGate_txu (s : State) : (s.setGate).txu = s.txu := rfl
@[simp] theorem State.setGate_txs (s : State) : (s.setGate).txs = s.txs := rfl
@[simp] theorem State.setGate_txsLen (s : State) : (s.setGate).txsLen = s.txsLen := rfl
@[simp] theorem State.setGate_rxs (s : State) : (s.setGate).rxs = s.rxs := rfl
@[simp] theorem State.setGate_rxu (s : State) : (s.setGate).rxu = s.rxu := rfl
@[simp] theorem State.setGate_rxuBits (s : State) : (s.setGate).rxuBits = s.rxuBits := rfl
@[simp] theorem State.setGate_crc (s : State) : (s.setGate).crc = s.crc := rfl
@[simp] theorem State.setGate_stuffer (s : State) : (s.setGate).stuffer = s.stuffer := rfl
@[simp] theorem State.setGate_unstuffer (s : State) : (s.setGate).unstuffer = s.unstuffer := rfl
@[simp] theorem State.setGate_pending (s : State) : (s.setGate).pending = s.pending := rfl
@[simp] theorem State.setGate_trace (s : State) : (s.setGate).trace = s.trace := rfl
@[simp] theorem State.setGate_result (s : State) : (s.setGate).result = s.result := rfl
@[simp] theorem State.setGate_rxVerdict (s : State) : (s.setGate).rxVerdict = s.rxVerdict := rfl
@[simp] theorem State.setGate_epoch (s : State) : (s.setGate).epoch = s.epoch := rfl

/-! `GATE.busy <- 0`. -/

@[simp] theorem State.clearGate_selfAddr (s : State) : (s.clearGate).selfAddr = s.selfAddr := rfl
@[simp] theorem State.clearGate_peerAddr (s : State) : (s.clearGate).peerAddr = s.peerAddr := rfl
@[simp] theorem State.clearGate_bcastAddr (s : State) : (s.clearGate).bcastAddr = s.bcastAddr := rfl
@[simp] theorem State.clearGate_reserve (s : State) : (s.clearGate).reserve = s.reserve := rfl
@[simp] theorem State.clearGate_busy (s : State) : (s.clearGate).busy = false := rfl
@[simp] theorem State.clearGate_rxState (s : State) : (s.clearGate).rxState = s.rxState := rfl
@[simp] theorem State.clearGate_sent (s : State) : (s.clearGate).sent = s.sent := rfl
@[simp] theorem State.clearGate_received (s : State) : (s.clearGate).received = s.received := rfl
@[simp] theorem State.clearGate_missed (s : State) : (s.clearGate).missed = s.missed := rfl
@[simp] theorem State.clearGate_txu (s : State) : (s.clearGate).txu = s.txu := rfl
@[simp] theorem State.clearGate_txs (s : State) : (s.clearGate).txs = s.txs := rfl
@[simp] theorem State.clearGate_txsLen (s : State) : (s.clearGate).txsLen = s.txsLen := rfl
@[simp] theorem State.clearGate_rxs (s : State) : (s.clearGate).rxs = s.rxs := rfl
@[simp] theorem State.clearGate_rxu (s : State) : (s.clearGate).rxu = s.rxu := rfl
@[simp] theorem State.clearGate_rxuBits (s : State) : (s.clearGate).rxuBits = s.rxuBits := rfl
@[simp] theorem State.clearGate_crc (s : State) : (s.clearGate).crc = s.crc := rfl
@[simp] theorem State.clearGate_stuffer (s : State) : (s.clearGate).stuffer = s.stuffer := rfl
@[simp] theorem State.clearGate_unstuffer (s : State) : (s.clearGate).unstuffer = s.unstuffer := rfl
@[simp] theorem State.clearGate_pending (s : State) : (s.clearGate).pending = s.pending := rfl
@[simp] theorem State.clearGate_trace (s : State) : (s.clearGate).trace = s.trace := rfl
@[simp] theorem State.clearGate_result (s : State) : (s.clearGate).result = s.result := rfl
@[simp] theorem State.clearGate_rxVerdict (s : State) : (s.clearGate).rxVerdict = s.rxVerdict := rfl
@[simp] theorem State.clearGate_epoch (s : State) : (s.clearGate).epoch = s.epoch := rfl

/-! the `ENCODE` step of `SEND`. -/

@[simp] theorem State.encodeIntoTxu_selfAddr (s : State) (d : Word) (p : List Byte) : (s.encodeIntoTxu d p).selfAddr = s.selfAddr := by dsimp only [State.encodeIntoTxu]
@[simp] theorem State.encodeIntoTxu_peerAddr (s : State) (d : Word) (p : List Byte) : (s.encodeIntoTxu d p).peerAddr = s.peerAddr := by dsimp only [State.encodeIntoTxu]
@[simp] theorem State.encodeIntoTxu_bcastAddr (s : State) (d : Word) (p : List Byte) : (s.encodeIntoTxu d p).bcastAddr = s.bcastAddr := by dsimp only [State.encodeIntoTxu]
@[simp] theorem State.encodeIntoTxu_reserve (s : State) (d : Word) (p : List Byte) : (s.encodeIntoTxu d p).reserve = s.reserve := by dsimp only [State.encodeIntoTxu]
@[simp] theorem State.encodeIntoTxu_busy (s : State) (d : Word) (p : List Byte) : (s.encodeIntoTxu d p).busy = s.busy := by dsimp only [State.encodeIntoTxu]
@[simp] theorem State.encodeIntoTxu_rxState (s : State) (d : Word) (p : List Byte) : (s.encodeIntoTxu d p).rxState = s.rxState := by dsimp only [State.encodeIntoTxu]
@[simp] theorem State.encodeIntoTxu_sent (s : State) (d : Word) (p : List Byte) : (s.encodeIntoTxu d p).sent = s.sent := by dsimp only [State.encodeIntoTxu]
@[simp] theorem State.encodeIntoTxu_received (s : State) (d : Word) (p : List Byte) : (s.encodeIntoTxu d p).received = s.received := by dsimp only [State.encodeIntoTxu]
@[simp] theorem State.encodeIntoTxu_missed (s : State) (d : Word) (p : List Byte) : (s.encodeIntoTxu d p).missed = s.missed := by dsimp only [State.encodeIntoTxu]
@[simp] theorem State.encodeIntoTxu_txu (s : State) (d : Word) (p : List Byte) : (s.encodeIntoTxu d p).txu = Buffer.writeFrom s.txu 0 (encodeFrame d s.reserve p) := by dsimp only [State.encodeIntoTxu]
@[simp] theorem State.encodeIntoTxu_txs (s : State) (d : Word) (p : List Byte) : (s.encodeIntoTxu d p).txs = s.txs := by dsimp only [State.encodeIntoTxu]
@[simp] theorem State.encodeIntoTxu_txsLen (s : State) (d : Word) (p : List Byte) : (s.encodeIntoTxu d p).txsLen = s.txsLen := by dsimp only [State.encodeIntoTxu]
@[simp] theorem State.encodeIntoTxu_rxs (s : State) (d : Word) (p : List Byte) : (s.encodeIntoTxu d p).rxs = s.rxs := by dsimp only [State.encodeIntoTxu]
@[simp] theorem State.encodeIntoTxu_rxu (s : State) (d : Word) (p : List Byte) : (s.encodeIntoTxu d p).rxu = s.rxu := by dsimp only [State.encodeIntoTxu]
@[simp] theorem State.encodeIntoTxu_rxuBits (s : State) (d : Word) (p : List Byte) : (s.encodeIntoTxu d p).rxuBits = s.rxuBits := by dsimp only [State.encodeIntoTxu]
@[simp] theorem State.encodeIntoTxu_crc (s : State) (d : Word) (p : List Byte) : (s.encodeIntoTxu d p).crc = encodeEngine s.crc d s.reserve p := by dsimp only [State.encodeIntoTxu]
@[simp] theorem State.encodeIntoTxu_stuffer (s : State) (d : Word) (p : List Byte) : (s.encodeIntoTxu d p).stuffer = s.stuffer := by dsimp only [State.encodeIntoTxu]
@[simp] theorem State.encodeIntoTxu_unstuffer (s : State) (d : Word) (p : List Byte) : (s.encodeIntoTxu d p).unstuffer = s.unstuffer := by dsimp only [State.encodeIntoTxu]
@[simp] theorem State.encodeIntoTxu_pending (s : State) (d : Word) (p : List Byte) : (s.encodeIntoTxu d p).pending = s.pending := by dsimp only [State.encodeIntoTxu]
@[simp] theorem State.encodeIntoTxu_trace (s : State) (d : Word) (p : List Byte) : (s.encodeIntoTxu d p).trace = s.trace := by dsimp only [State.encodeIntoTxu]
@[simp] theorem State.encodeIntoTxu_result (s : State) (d : Word) (p : List Byte) : (s.encodeIntoTxu d p).result = s.result := by dsimp only [State.encodeIntoTxu]
@[simp] theorem State.encodeIntoTxu_rxVerdict (s : State) (d : Word) (p : List Byte) : (s.encodeIntoTxu d p).rxVerdict = s.rxVerdict := by dsimp only [State.encodeIntoTxu]
@[simp] theorem State.encodeIntoTxu_epoch (s : State) (d : Word) (p : List Byte) : (s.encodeIntoTxu d p).epoch = s.epoch := by dsimp only [State.encodeIntoTxu]

/-! the `STUFF` step of `SEND`. -/

@[simp] theorem State.stuffIntoTxs_selfAddr (s : State) : (s.stuffIntoTxs).selfAddr = s.selfAddr := by dsimp only [State.stuffIntoTxs]
@[simp] theorem State.stuffIntoTxs_peerAddr (s : State) : (s.stuffIntoTxs).peerAddr = s.peerAddr := by dsimp only [State.stuffIntoTxs]
@[simp] theorem State.stuffIntoTxs_bcastAddr (s : State) : (s.stuffIntoTxs).bcastAddr = s.bcastAddr := by dsimp only [State.stuffIntoTxs]
@[simp] theorem State.stuffIntoTxs_reserve (s : State) : (s.stuffIntoTxs).reserve = s.reserve := by dsimp only [State.stuffIntoTxs]
@[simp] theorem State.stuffIntoTxs_busy (s : State) : (s.stuffIntoTxs).busy = s.busy := by dsimp only [State.stuffIntoTxs]
@[simp] theorem State.stuffIntoTxs_rxState (s : State) : (s.stuffIntoTxs).rxState = s.rxState := by dsimp only [State.stuffIntoTxs]
@[simp] theorem State.stuffIntoTxs_sent (s : State) : (s.stuffIntoTxs).sent = s.sent := by dsimp only [State.stuffIntoTxs]
@[simp] theorem State.stuffIntoTxs_received (s : State) : (s.stuffIntoTxs).received = s.received := by dsimp only [State.stuffIntoTxs]
@[simp] theorem State.stuffIntoTxs_missed (s : State) : (s.stuffIntoTxs).missed = s.missed := by dsimp only [State.stuffIntoTxs]
@[simp] theorem State.stuffIntoTxs_txu (s : State) : (s.stuffIntoTxs).txu = s.txu := by dsimp only [State.stuffIntoTxs]
@[simp] theorem State.stuffIntoTxs_txs (s : State) : (s.stuffIntoTxs).txs = Buffer.writeFrom s.txs 0 (stuffWords s.txuWords) := by dsimp only [State.stuffIntoTxs]
@[simp] theorem State.stuffIntoTxs_txsLen (s : State) : (s.stuffIntoTxs).txsLen = (stuffWords s.txuWords).length := by dsimp only [State.stuffIntoTxs]
@[simp] theorem State.stuffIntoTxs_rxs (s : State) : (s.stuffIntoTxs).rxs = s.rxs := by dsimp only [State.stuffIntoTxs]
@[simp] theorem State.stuffIntoTxs_rxu (s : State) : (s.stuffIntoTxs).rxu = s.rxu := by dsimp only [State.stuffIntoTxs]
@[simp] theorem State.stuffIntoTxs_rxuBits (s : State) : (s.stuffIntoTxs).rxuBits = s.rxuBits := by dsimp only [State.stuffIntoTxs]
@[simp] theorem State.stuffIntoTxs_crc (s : State) : (s.stuffIntoTxs).crc = s.crc := by dsimp only [State.stuffIntoTxs]
@[simp] theorem State.stuffIntoTxs_stuffer (s : State) : (s.stuffIntoTxs).stuffer = stufferAfter s.txuWords := by dsimp only [State.stuffIntoTxs]
@[simp] theorem State.stuffIntoTxs_unstuffer (s : State) : (s.stuffIntoTxs).unstuffer = s.unstuffer := by dsimp only [State.stuffIntoTxs]
@[simp] theorem State.stuffIntoTxs_pending (s : State) : (s.stuffIntoTxs).pending = s.pending := by dsimp only [State.stuffIntoTxs]
@[simp] theorem State.stuffIntoTxs_trace (s : State) : (s.stuffIntoTxs).trace = s.trace := by dsimp only [State.stuffIntoTxs]
@[simp] theorem State.stuffIntoTxs_result (s : State) : (s.stuffIntoTxs).result = s.result := by dsimp only [State.stuffIntoTxs]
@[simp] theorem State.stuffIntoTxs_rxVerdict (s : State) : (s.stuffIntoTxs).rxVerdict = s.rxVerdict := by dsimp only [State.stuffIntoTxs]
@[simp] theorem State.stuffIntoTxs_epoch (s : State) : (s.stuffIntoTxs).epoch = s.epoch := by dsimp only [State.stuffIntoTxs]

/-! `begin_transmit`. -/

@[simp] theorem State.beginTransmit_selfAddr (s : State) : (s.beginTransmit).selfAddr = s.selfAddr := State.emit_selfAddr s _
@[simp] theorem State.beginTransmit_peerAddr (s : State) : (s.beginTransmit).peerAddr = s.peerAddr := State.emit_peerAddr s _
@[simp] theorem State.beginTransmit_bcastAddr (s : State) : (s.beginTransmit).bcastAddr = s.bcastAddr := State.emit_bcastAddr s _
@[simp] theorem State.beginTransmit_reserve (s : State) : (s.beginTransmit).reserve = s.reserve := State.emit_reserve s _
@[simp] theorem State.beginTransmit_busy (s : State) : (s.beginTransmit).busy = s.busy := State.emit_busy s _
@[simp] theorem State.beginTransmit_rxState (s : State) : (s.beginTransmit).rxState = s.rxState := State.emit_rxState s _
@[simp] theorem State.beginTransmit_sent (s : State) : (s.beginTransmit).sent = s.sent := State.emit_sent s _
@[simp] theorem State.beginTransmit_received (s : State) : (s.beginTransmit).received = s.received := State.emit_received s _
@[simp] theorem State.beginTransmit_missed (s : State) : (s.beginTransmit).missed = s.missed := State.emit_missed s _
@[simp] theorem State.beginTransmit_txu (s : State) : (s.beginTransmit).txu = s.txu := State.emit_txu s _
@[simp] theorem State.beginTransmit_txs (s : State) : (s.beginTransmit).txs = s.txs := State.emit_txs s _
@[simp] theorem State.beginTransmit_txsLen (s : State) : (s.beginTransmit).txsLen = s.txsLen := State.emit_txsLen s _
@[simp] theorem State.beginTransmit_rxs (s : State) : (s.beginTransmit).rxs = s.rxs := State.emit_rxs s _
@[simp] theorem State.beginTransmit_rxu (s : State) : (s.beginTransmit).rxu = s.rxu := State.emit_rxu s _
@[simp] theorem State.beginTransmit_rxuBits (s : State) : (s.beginTransmit).rxuBits = s.rxuBits := State.emit_rxuBits s _
@[simp] theorem State.beginTransmit_crc (s : State) : (s.beginTransmit).crc = s.crc := State.emit_crc s _
@[simp] theorem State.beginTransmit_stuffer (s : State) : (s.beginTransmit).stuffer = s.stuffer := State.emit_stuffer s _
@[simp] theorem State.beginTransmit_unstuffer (s : State) : (s.beginTransmit).unstuffer = s.unstuffer := State.emit_unstuffer s _
@[simp] theorem State.beginTransmit_pending (s : State) : (s.beginTransmit).pending = s.pending := State.emit_pending s _
@[simp] theorem State.beginTransmit_trace (s : State) : (s.beginTransmit).trace = s.trace ++ [.beginTransmit (s.txsWords s.txsLen) s.txsLen] := State.emit_trace s _
@[simp] theorem State.beginTransmit_result (s : State) : (s.beginTransmit).result = s.result := State.emit_result s _
@[simp] theorem State.beginTransmit_rxVerdict (s : State) : (s.beginTransmit).rxVerdict = s.rxVerdict := State.emit_rxVerdict s _
@[simp] theorem State.beginTransmit_epoch (s : State) : (s.beginTransmit).epoch = s.epoch := State.emit_epoch s _

/-! the image of `EV_FRAME_BOUNDARY`. -/

@[simp] theorem State.storeImage_selfAddr (s : State) (img : List Byte) : (s.storeImage img).selfAddr = s.selfAddr := by dsimp only [State.storeImage]
@[simp] theorem State.storeImage_peerAddr (s : State) (img : List Byte) : (s.storeImage img).peerAddr = s.peerAddr := by dsimp only [State.storeImage]
@[simp] theorem State.storeImage_bcastAddr (s : State) (img : List Byte) : (s.storeImage img).bcastAddr = s.bcastAddr := by dsimp only [State.storeImage]
@[simp] theorem State.storeImage_reserve (s : State) (img : List Byte) : (s.storeImage img).reserve = s.reserve := by dsimp only [State.storeImage]
@[simp] theorem State.storeImage_busy (s : State) (img : List Byte) : (s.storeImage img).busy = s.busy := by dsimp only [State.storeImage]
@[simp] theorem State.storeImage_rxState (s : State) (img : List Byte) : (s.storeImage img).rxState = s.rxState := by dsimp only [State.storeImage]
@[simp] theorem State.storeImage_sent (s : State) (img : List Byte) : (s.storeImage img).sent = s.sent := by dsimp only [State.storeImage]
@[simp] theorem State.storeImage_received (s : State) (img : List Byte) : (s.storeImage img).received = s.received := by dsimp only [State.storeImage]
@[simp] theorem State.storeImage_missed (s : State) (img : List Byte) : (s.storeImage img).missed = s.missed := by dsimp only [State.storeImage]
@[simp] theorem State.storeImage_txu (s : State) (img : List Byte) : (s.storeImage img).txu = s.txu := by dsimp only [State.storeImage]
@[simp] theorem State.storeImage_txs (s : State) (img : List Byte) : (s.storeImage img).txs = s.txs := by dsimp only [State.storeImage]
@[simp] theorem State.storeImage_txsLen (s : State) (img : List Byte) : (s.storeImage img).txsLen = s.txsLen := by dsimp only [State.storeImage]
@[simp] theorem State.storeImage_rxs (s : State) (img : List Byte) : (s.storeImage img).rxs = Buffer.writeFrom s.rxs 0 (img.take Config.maxStuffedPacketLenBytes) := by dsimp only [State.storeImage]
@[simp] theorem State.storeImage_rxu (s : State) (img : List Byte) : (s.storeImage img).rxu = s.rxu := by dsimp only [State.storeImage]
@[simp] theorem State.storeImage_rxuBits (s : State) (img : List Byte) : (s.storeImage img).rxuBits = s.rxuBits := by dsimp only [State.storeImage]
@[simp] theorem State.storeImage_crc (s : State) (img : List Byte) : (s.storeImage img).crc = s.crc := by dsimp only [State.storeImage]
@[simp] theorem State.storeImage_stuffer (s : State) (img : List Byte) : (s.storeImage img).stuffer = s.stuffer := by dsimp only [State.storeImage]
@[simp] theorem State.storeImage_unstuffer (s : State) (img : List Byte) : (s.storeImage img).unstuffer = s.unstuffer := by dsimp only [State.storeImage]
@[simp] theorem State.storeImage_pending (s : State) (img : List Byte) : (s.storeImage img).pending = s.pending := by dsimp only [State.storeImage]
@[simp] theorem State.storeImage_trace (s : State) (img : List Byte) : (s.storeImage img).trace = s.trace := by dsimp only [State.storeImage]
@[simp] theorem State.storeImage_result (s : State) (img : List Byte) : (s.storeImage img).result = s.result := by dsimp only [State.storeImage]
@[simp] theorem State.storeImage_rxVerdict (s : State) (img : List Byte) : (s.storeImage img).rxVerdict = s.rxVerdict := by dsimp only [State.storeImage]
@[simp] theorem State.storeImage_epoch (s : State) (img : List Byte) : (s.storeImage img).epoch = s.epoch := by dsimp only [State.storeImage]

/-! the `UNSTUFF` step of `EV_FRAME_BOUNDARY`. -/

@[simp] theorem State.unstuffIntoRxu_selfAddr (s : State) : (s.unstuffIntoRxu).selfAddr = s.selfAddr := by dsimp only [State.unstuffIntoRxu]
@[simp] theorem State.unstuffIntoRxu_peerAddr (s : State) : (s.unstuffIntoRxu).peerAddr = s.peerAddr := by dsimp only [State.unstuffIntoRxu]
@[simp] theorem State.unstuffIntoRxu_bcastAddr (s : State) : (s.unstuffIntoRxu).bcastAddr = s.bcastAddr := by dsimp only [State.unstuffIntoRxu]
@[simp] theorem State.unstuffIntoRxu_reserve (s : State) : (s.unstuffIntoRxu).reserve = s.reserve := by dsimp only [State.unstuffIntoRxu]
@[simp] theorem State.unstuffIntoRxu_busy (s : State) : (s.unstuffIntoRxu).busy = s.busy := by dsimp only [State.unstuffIntoRxu]
@[simp] theorem State.unstuffIntoRxu_rxState (s : State) : (s.unstuffIntoRxu).rxState = s.rxState := by dsimp only [State.unstuffIntoRxu]
@[simp] theorem State.unstuffIntoRxu_sent (s : State) : (s.unstuffIntoRxu).sent = s.sent := by dsimp only [State.unstuffIntoRxu]
@[simp] theorem State.unstuffIntoRxu_received (s : State) : (s.unstuffIntoRxu).received = s.received := by dsimp only [State.unstuffIntoRxu]
@[simp] theorem State.unstuffIntoRxu_missed (s : State) : (s.unstuffIntoRxu).missed = s.missed := by dsimp only [State.unstuffIntoRxu]
@[simp] theorem State.unstuffIntoRxu_txu (s : State) : (s.unstuffIntoRxu).txu = s.txu := by dsimp only [State.unstuffIntoRxu]
@[simp] theorem State.unstuffIntoRxu_txs (s : State) : (s.unstuffIntoRxu).txs = s.txs := by dsimp only [State.unstuffIntoRxu]
@[simp] theorem State.unstuffIntoRxu_txsLen (s : State) : (s.unstuffIntoRxu).txsLen = s.txsLen := by dsimp only [State.unstuffIntoRxu]
@[simp] theorem State.unstuffIntoRxu_rxs (s : State) : (s.unstuffIntoRxu).rxs = s.rxs := by dsimp only [State.unstuffIntoRxu]
@[simp] theorem State.unstuffIntoRxu_rxu (s : State) : (s.unstuffIntoRxu).rxu = Buffer.writeFrom s.rxu 0 (unstuffBytes s.rxsBytes) := by dsimp only [State.unstuffIntoRxu]
@[simp] theorem State.unstuffIntoRxu_rxuBits (s : State) : (s.unstuffIntoRxu).rxuBits = unstuffCount s.rxsBytes := by dsimp only [State.unstuffIntoRxu]
@[simp] theorem State.unstuffIntoRxu_crc (s : State) : (s.unstuffIntoRxu).crc = s.crc := by dsimp only [State.unstuffIntoRxu]
@[simp] theorem State.unstuffIntoRxu_stuffer (s : State) : (s.unstuffIntoRxu).stuffer = s.stuffer := by dsimp only [State.unstuffIntoRxu]
@[simp] theorem State.unstuffIntoRxu_unstuffer (s : State) : (s.unstuffIntoRxu).unstuffer = unstufferAfter s.rxsBytes := by dsimp only [State.unstuffIntoRxu]
@[simp] theorem State.unstuffIntoRxu_pending (s : State) : (s.unstuffIntoRxu).pending = s.pending := by dsimp only [State.unstuffIntoRxu]
@[simp] theorem State.unstuffIntoRxu_trace (s : State) : (s.unstuffIntoRxu).trace = s.trace := by dsimp only [State.unstuffIntoRxu]
@[simp] theorem State.unstuffIntoRxu_result (s : State) : (s.unstuffIntoRxu).result = s.result := by dsimp only [State.unstuffIntoRxu]
@[simp] theorem State.unstuffIntoRxu_rxVerdict (s : State) : (s.unstuffIntoRxu).rxVerdict = s.rxVerdict := by dsimp only [State.unstuffIntoRxu]
@[simp] theorem State.unstuffIntoRxu_epoch (s : State) : (s.unstuffIntoRxu).epoch = s.epoch := by dsimp only [State.unstuffIntoRxu]

/-! the `VALIDATE` step of `EV_FRAME_BOUNDARY`. -/

@[simp] theorem State.judge_selfAddr (s : State) : (s.judge).selfAddr = s.selfAddr := by dsimp only [State.judge]
@[simp] theorem State.judge_peerAddr (s : State) : (s.judge).peerAddr = s.peerAddr := by dsimp only [State.judge]
@[simp] theorem State.judge_bcastAddr (s : State) : (s.judge).bcastAddr = s.bcastAddr := by dsimp only [State.judge]
@[simp] theorem State.judge_reserve (s : State) : (s.judge).reserve = s.reserve := by dsimp only [State.judge]
@[simp] theorem State.judge_busy (s : State) : (s.judge).busy = s.busy := by dsimp only [State.judge]
@[simp] theorem State.judge_rxState (s : State) : (s.judge).rxState = s.rxState := by dsimp only [State.judge]
@[simp] theorem State.judge_sent (s : State) : (s.judge).sent = s.sent := by dsimp only [State.judge]
@[simp] theorem State.judge_received (s : State) : (s.judge).received = s.received := by dsimp only [State.judge]
@[simp] theorem State.judge_missed (s : State) : (s.judge).missed = s.missed := by dsimp only [State.judge]
@[simp] theorem State.judge_txu (s : State) : (s.judge).txu = s.txu := by dsimp only [State.judge]
@[simp] theorem State.judge_txs (s : State) : (s.judge).txs = s.txs := by dsimp only [State.judge]
@[simp] theorem State.judge_txsLen (s : State) : (s.judge).txsLen = s.txsLen := by dsimp only [State.judge]
@[simp] theorem State.judge_rxs (s : State) : (s.judge).rxs = s.rxs := by dsimp only [State.judge]
@[simp] theorem State.judge_rxu (s : State) : (s.judge).rxu = s.rxu := by dsimp only [State.judge]
@[simp] theorem State.judge_rxuBits (s : State) : (s.judge).rxuBits = s.rxuBits := by dsimp only [State.judge]
@[simp] theorem State.judge_crc (s : State) : (s.judge).crc = validateEngine s.crc s.selfAddr s.bcastAddr s.rxuBytes := by dsimp only [State.judge]
@[simp] theorem State.judge_stuffer (s : State) : (s.judge).stuffer = s.stuffer := by dsimp only [State.judge]
@[simp] theorem State.judge_unstuffer (s : State) : (s.judge).unstuffer = s.unstuffer := by dsimp only [State.judge]
@[simp] theorem State.judge_pending (s : State) : (s.judge).pending = s.pending := by dsimp only [State.judge]
@[simp] theorem State.judge_trace (s : State) : (s.judge).trace = s.trace := by dsimp only [State.judge]
@[simp] theorem State.judge_result (s : State) : (s.judge).result = s.result := by dsimp only [State.judge]
@[simp] theorem State.judge_rxVerdict (s : State) : (s.judge).rxVerdict = some (validateFrame s.selfAddr s.bcastAddr s.rxuBytes) := by dsimp only [State.judge]
@[simp] theorem State.judge_epoch (s : State) : (s.judge).epoch = s.epoch := by dsimp only [State.judge]

/-! The counter a verdict moves. -/

@[simp] theorem State.countVerdict_selfAddr (s : State) : s.countVerdict.selfAddr = s.selfAddr := by
  unfold State.countVerdict; split <;> simp_all
@[simp] theorem State.countVerdict_peerAddr (s : State) : s.countVerdict.peerAddr = s.peerAddr := by
  unfold State.countVerdict; split <;> simp_all
@[simp] theorem State.countVerdict_bcastAddr (s : State) : s.countVerdict.bcastAddr = s.bcastAddr := by
  unfold State.countVerdict; split <;> simp_all
@[simp] theorem State.countVerdict_reserve (s : State) : s.countVerdict.reserve = s.reserve := by
  unfold State.countVerdict; split <;> simp_all
@[simp] theorem State.countVerdict_busy (s : State) : s.countVerdict.busy = s.busy := by
  unfold State.countVerdict; split <;> simp_all
@[simp] theorem State.countVerdict_rxState (s : State) : s.countVerdict.rxState = s.rxState := by
  unfold State.countVerdict; split <;> simp_all
@[simp] theorem State.countVerdict_sent (s : State) : s.countVerdict.sent = s.sent := by
  unfold State.countVerdict; split <;> simp_all
@[simp] theorem State.countVerdict_received (s : State) : s.countVerdict.received =
    if s.rxVerdict = some .accept then countUp s.received else s.received := by
  unfold State.countVerdict; split <;> simp_all
@[simp] theorem State.countVerdict_missed (s : State) : s.countVerdict.missed =
    if s.rxVerdict = some .accept then s.missed else countUp s.missed := by
  unfold State.countVerdict; split <;> simp_all
@[simp] theorem State.countVerdict_txu (s : State) : s.countVerdict.txu = s.txu := by
  unfold State.countVerdict; split <;> simp_all
@[simp] theorem State.countVerdict_txs (s : State) : s.countVerdict.txs = s.txs := by
  unfold State.countVerdict; split <;> simp_all
@[simp] theorem State.countVerdict_txsLen (s : State) : s.countVerdict.txsLen = s.txsLen := by
  unfold State.countVerdict; split <;> simp_all
@[simp] theorem State.countVerdict_rxs (s : State) : s.countVerdict.rxs = s.rxs := by
  unfold State.countVerdict; split <;> simp_all
@[simp] theorem State.countVerdict_rxu (s : State) : s.countVerdict.rxu = s.rxu := by
  unfold State.countVerdict; split <;> simp_all
@[simp] theorem State.countVerdict_rxuBits (s : State) : s.countVerdict.rxuBits = s.rxuBits := by
  unfold State.countVerdict; split <;> simp_all
@[simp] theorem State.countVerdict_crc (s : State) : s.countVerdict.crc = s.crc := by
  unfold State.countVerdict; split <;> simp_all
@[simp] theorem State.countVerdict_stuffer (s : State) : s.countVerdict.stuffer = s.stuffer := by
  unfold State.countVerdict; split <;> simp_all
@[simp] theorem State.countVerdict_unstuffer (s : State) : s.countVerdict.unstuffer = s.unstuffer := by
  unfold State.countVerdict; split <;> simp_all
@[simp] theorem State.countVerdict_pending (s : State) : s.countVerdict.pending = s.pending := by
  unfold State.countVerdict; split <;> simp_all
@[simp] theorem State.countVerdict_trace (s : State) : s.countVerdict.trace = s.trace := by
  unfold State.countVerdict; split <;> simp_all
@[simp] theorem State.countVerdict_result (s : State) : s.countVerdict.result = s.result := by
  unfold State.countVerdict; split <;> simp_all
@[simp] theorem State.countVerdict_rxVerdict (s : State) : s.countVerdict.rxVerdict = s.rxVerdict := by
  unfold State.countVerdict; split <;> simp_all
@[simp] theorem State.countVerdict_epoch (s : State) : s.countVerdict.epoch = s.epoch := by
  unfold State.countVerdict; split <;> simp_all

/-- An overrun counts nothing while `COUNT_OVERRUN_AS_MISSED` is false (45_session_ops.md rule R139). -/
@[simp] theorem State.countOverrun_eq (s : State) : s.countOverrun = s := rfl

end Sys2Proof.Machine
end

