-- ==== Sys2Proof/Laws/Memory.lean ====
section
/-! SUPPORT. The buffers: reads after writes, and the canonical form that every write keeps. -/

namespace Sys2Proof.Machine

variable {α : Type}

@[simp] theorem Buffer.lookup_nil (i : Nat) : Buffer.lookup ([] : Buffer α) i = none := rfl

/-- A write is read back at its index and nowhere else. -/
@[simp] theorem Buffer.lookup_write (b : Buffer α) (i j : Nat) (v : α) :
    Buffer.lookup (Buffer.write b i v) j = if i = j then some v else Buffer.lookup b j := by
  induction b with
  | nil => simp [Buffer.write, Buffer.lookup]
  | cons e rest ih =>
    obtain ⟨k, w⟩ := e
    unfold Buffer.write
    split
    · simp [Buffer.lookup]
    · split
      · subst ‹i = k›
        by_cases h : i = j <;> simp [Buffer.lookup, h]
      · by_cases hk : k = j
        · have hne : i ≠ j := by omega
          simp [Buffer.lookup, hk, hne]
        · simp [Buffer.lookup, hk, ih]

/-- Where a write puts indices. -/
theorem Buffer.mem_write_key {b : Buffer α} {i : Nat} {v : α} {e : Nat × α}
    (h : e ∈ Buffer.write b i v) : e.1 = i ∨ e ∈ b := by
  induction b with
  | nil => simp_all [Buffer.write]
  | cons c rest ih =>
    obtain ⟨k, w⟩ := c
    unfold Buffer.write at h
    split at h
    · rcases List.mem_cons.1 h with rfl | h
      · exact .inl rfl
      · exact .inr h
    · split at h
      · rcases List.mem_cons.1 h with rfl | h
        · exact .inl rfl
        · exact .inr (List.mem_cons_of_mem _ h)
      · rcases List.mem_cons.1 h with rfl | h
        · exact .inr (List.mem_cons_self ..)
        · exact (ih h).imp id (List.mem_cons_of_mem _)

/-- The canonical form, taken apart at the head. -/
theorem Memory.wf_cons {k : Nat} {w : α} {rest : Buffer α} :
    Memory.wf ((k, w) :: rest) ↔ (∀ e ∈ rest, k < e.1) ∧ Memory.wf rest := by
  simp [Memory.wf]

/-- A write keeps the canonical form. -/
theorem Buffer.write_wf {b : Buffer α} {i : Nat} {v : α} (h : Memory.wf b) :
    Memory.wf (Buffer.write b i v) := by
  induction b with
  | nil => simp [Buffer.write, Memory.wf]
  | cons c rest ih =>
    obtain ⟨k, w⟩ := c
    obtain ⟨hk, hrest⟩ := Memory.wf_cons.1 h
    unfold Buffer.write
    split
    · rename_i hlt
      refine Memory.wf_cons.2 ⟨fun e he => ?_, h⟩
      rcases List.mem_cons.1 he with rfl | he
      · exact hlt
      · exact hlt.trans (hk e he)
    · split
      · subst ‹i = k›
        exact Memory.wf_cons.2 ⟨hk, hrest⟩
      · refine Memory.wf_cons.2 ⟨fun e he => ?_, ih hrest⟩
        rcases Buffer.mem_write_key he with h' | h'
        · omega
        · exact hk e h'

/-- A run of writes is read back over its range and nowhere else. -/
theorem Buffer.lookup_writeFrom (b : Buffer α) (i j : Nat) (vs : List α) :
    Buffer.lookup (Buffer.writeFrom b i vs) j =
      if i ≤ j ∧ j < i + vs.length then vs[j - i]? else Buffer.lookup b j := by
  induction vs generalizing b i with
  | nil =>
    have : ¬ (i ≤ j ∧ j < i + ([] : List α).length) := by simp
    simp only [Buffer.writeFrom, if_neg this]
  | cons v vs ih =>
    simp only [Buffer.writeFrom, ih, Buffer.lookup_write, List.length_cons]
    by_cases hij : i = j
    · subst hij; simp
    · by_cases hr : i + 1 ≤ j ∧ j < i + 1 + vs.length
      · rw [if_pos hr, if_pos (by omega), show j - i = (j - (i + 1)) + 1 by omega,
          List.getElem?_cons_succ]
      · rw [if_neg hr, if_neg hij, if_neg (by omega)]

/-- A run of writes keeps the canonical form. -/
theorem Buffer.writeFrom_wf {b : Buffer α} {i : Nat} {vs : List α} (h : Memory.wf b) :
    Memory.wf (Buffer.writeFrom b i vs) := by
  induction vs generalizing b i with
  | nil => exact h
  | cons v vs ih => exact ih (Buffer.write_wf h)

/-- A run of writes below `n` keeps every index below `n`. -/
theorem Buffer.writeFrom_below {b : Buffer α} {n i : Nat} {vs : List α} (h : ∀ e ∈ b, e.1 < n)
    (hv : i + vs.length ≤ n) : ∀ e ∈ Buffer.writeFrom b i vs, e.1 < n := by
  induction vs generalizing b i with
  | nil => exact h
  | cons v vs ih =>
    rw [List.length_cons] at hv
    refine ih (fun e he => ?_) (by omega)
    rcases Buffer.mem_write_key he with h' | h'
    · omega
    · exact h e h'

/-- Reading a whole range that was just written gives what was written, whatever unwritten elements
read as. -/
theorem Buffer.map_lookup_writeFrom (b : Buffer α) (vs : List α) (d : Nat → α) :
    (List.range vs.length).map (fun k => (Buffer.lookup (Buffer.writeFrom b 0 vs) k).getD (d k)) = vs := by
  apply List.ext_getElem
  · simp
  · intro k h₁ h₂
    have hk : k < vs.length := by simpa using h₁
    simp [Buffer.lookup_writeFrom, hk]

/-! The same for the four buffers of State. -/

/-- The buffers after reset are canonical. -/
theorem State.reset_wf : Memory.wf State.reset.txu ∧ Memory.wf State.reset.txs ∧
    Memory.wf State.reset.rxs ∧ Memory.wf State.reset.rxu :=
  ⟨List.Pairwise.nil, List.Pairwise.nil, List.Pairwise.nil, List.Pairwise.nil⟩

/-- The writer of `TXU` keeps its canonical form. -/
theorem State.encodeIntoTxu_wf {s : State} (d : Word) (p : List Byte) (h : Memory.wf s.txu) :
    Memory.wf (s.encodeIntoTxu d p).txu := Buffer.writeFrom_wf h

/-- The writer of `TXS` keeps its canonical form. -/
theorem State.stuffIntoTxs_wf {s : State} (h : Memory.wf s.txs) : Memory.wf s.stuffIntoTxs.txs :=
  Buffer.writeFrom_wf h

/-- The writer of `RXS` keeps its canonical form. -/
theorem State.storeImage_wf {s : State} (img : List Byte) (h : Memory.wf s.rxs) :
    Memory.wf (s.storeImage img).rxs := Buffer.writeFrom_wf h

/-- The writer of `RXU` keeps its canonical form. -/
theorem State.unstuffIntoRxu_wf {s : State} (h : Memory.wf s.rxu) : Memory.wf s.unstuffIntoRxu.rxu := by
  rw [State.unstuffIntoRxu_rxu]
  exact Buffer.writeFrom_wf h

/-- An element of `TXU` outside the frame just encoded reads as before. -/
theorem State.txuRead_encodeIntoTxu (s : State) (d : Word) (p : List Byte) (k : Nat) :
    (s.encodeIntoTxu d p).txuRead k =
      if k < (encodeFrame d s.reserve p).length then (encodeFrame d s.reserve p).getD k 0
      else s.txuRead k := by
  unfold State.txuRead
  simp only [State.encodeIntoTxu_txu, State.encodeIntoTxu_epoch, Buffer.lookup_writeFrom]
  generalize encodeFrame d s.reserve p = ws
  by_cases h : k < ws.length <;> simp [h]

/-- An element of `TXS` outside the words just stuffed reads as before. -/
theorem State.txsRead_stuffIntoTxs (s : State) (k : Nat) :
    s.stuffIntoTxs.txsRead k =
      if k < (stuffWords s.txuWords).length then (stuffWords s.txuWords).getD k 0
      else s.txsRead k := by
  unfold State.txsRead
  simp only [State.stuffIntoTxs_txs, State.stuffIntoTxs_epoch, Buffer.lookup_writeFrom]
  generalize stuffWords s.txuWords = ws
  by_cases h : k < ws.length <;> simp [h]

/-- `TXS[0 .. m)` holds what `STUFF` returned. -/
theorem State.txsWords_stuffIntoTxs (s : State) :
    s.stuffIntoTxs.txsWords s.stuffIntoTxs.txsLen = stuffWords s.txuWords :=
  Buffer.map_lookup_writeFrom s.txs (stuffWords s.txuWords) _

/-- `RXS` holds the image of a frame boundary. -/
theorem State.rxsBytes_storeImage (s : State) (img : List Byte) (h : img.length = 36) :
    (s.storeImage img).rxsBytes = img := by
  have ht : img.take 36 = img := List.take_of_length_le h.le
  unfold State.rxsBytes State.rxsRead
  simp only [State.storeImage_rxs, Config.maxStuffedPacketLenBytes_eq, ht]
  rw [← h]
  exact Buffer.map_lookup_writeFrom s.rxs img _

end Sys2Proof.Machine
end

