-- ==== Sys2Proof/Laws/PerInstr.lean ====
section
/-! SUPPORT. Facts about every instruction as syntax, one lemma for each constructor. -/

namespace Sys2Proof.Laws

/-- The table's "record_length_bytes" of a row (spec/opcode_table.json); a frame word has two bytes. -/
def recordLength : Instr → Nat
  | .reset => 1
  | .cfgSelf _ => 3
  | .cfgPeer _ => 3
  | .cfgBcast _ => 3
  | .cfgReserve _ => 2
  | .send _ p => 3 + p.length
  | .rd _ => 2
  | .evTxComplete => 1
  | .evFrameBoundary _ => 37
  | .evRxOverrun => 1
  | .crc16Update _ _ => 4
  | .crc16 bs => 2 + bs.length
  | .encode _ _ p => 5 + p.length
  | .stuff ws => 2 + 2 * ws.length
  | .unstuff bs => 2 + bs.length
  | .validate _ _ bs => 6 + bs.length
  | .reserved07 => 1
  | .reserved0B0F _ => 1
  | .reserved1617 _ => 1
  | .reservedClass11 _ => 1
  | .reservedHighBits _ => 1
  | .wAddress _ => 2
  | .wHeader _ _ _ => 2
  | .wPayload _ _ => 2
  | .wChecksum _ => 2
  | .wTerminator => 2

/-- The encoder writes as many bytes as the table gives the row. -/
def RecordLength.Statement (i : Instr) : Prop := i.wellFormed = true → (encode i).length = recordLength i

theorem RecordLength.reset : RecordLength.Statement .reset := fun _ => rfl
theorem RecordLength.cfgSelf (v : Word) : RecordLength.Statement (.cfgSelf v) := fun _ => rfl
theorem RecordLength.cfgPeer (v : Word) : RecordLength.Statement (.cfgPeer v) := fun _ => rfl
theorem RecordLength.cfgBcast (v : Word) : RecordLength.Statement (.cfgBcast v) := fun _ => rfl
theorem RecordLength.cfgReserve (v : Byte) : RecordLength.Statement (.cfgReserve v) := fun _ => rfl
theorem RecordLength.send (sel : Dest) (p : List Byte) : RecordLength.Statement (.send sel p) :=
  fun _ => by simp [Sys2Proof.encode, recordLength]; omega
theorem RecordLength.rd (reg : RegName) : RecordLength.Statement (.rd reg) := fun _ => rfl
theorem RecordLength.evTxComplete : RecordLength.Statement .evTxComplete := fun _ => rfl
theorem RecordLength.evFrameBoundary (img : List Byte) : RecordLength.Statement (.evFrameBoundary img) :=
  fun h => by
    have : img.length = 36 := by simpa [Instr.wellFormed] using h
    simp [Sys2Proof.encode, recordLength, this]
theorem RecordLength.evRxOverrun : RecordLength.Statement .evRxOverrun := fun _ => rfl
theorem RecordLength.crc16Update (byte : Byte) (reg : Word) :
    RecordLength.Statement (.crc16Update byte reg) := fun _ => rfl
theorem RecordLength.crc16 (bs : List Byte) : RecordLength.Statement (.crc16 bs) :=
  fun _ => by simp [Sys2Proof.encode, recordLength]; omega
theorem RecordLength.encode (dest : Word) (reserve : Byte) (p : List Byte) :
    RecordLength.Statement (.encode dest reserve p) :=
  fun _ => by simp [Sys2Proof.encode, recordLength, wordBytes]; omega
theorem RecordLength.stuff (ws : List Word) : RecordLength.Statement (.stuff ws) :=
  fun _ => by simp [Sys2Proof.encode, recordLength]; omega
theorem RecordLength.unstuff (bs : List Byte) : RecordLength.Statement (.unstuff bs) :=
  fun _ => by simp [Sys2Proof.encode, recordLength]; omega
theorem RecordLength.validate (self bc : Word) (bs : List Byte) :
    RecordLength.Statement (.validate self bc bs) :=
  fun _ => by simp [Sys2Proof.encode, recordLength, wordBytes]; omega
theorem RecordLength.reserved07 : RecordLength.Statement .reserved07 := fun _ => rfl
theorem RecordLength.reserved0B0F (index : BitVec 3) : RecordLength.Statement (.reserved0B0F index) :=
  fun _ => rfl
theorem RecordLength.reserved1617 (low : BitVec 1) : RecordLength.Statement (.reserved1617 low) :=
  fun _ => rfl
theorem RecordLength.reservedClass11 (index : BitVec 3) :
    RecordLength.Statement (.reservedClass11 index) := fun _ => rfl
theorem RecordLength.reservedHighBits (op : Byte) : RecordLength.Statement (.reservedHighBits op) :=
  fun _ => rfl
theorem RecordLength.wAddress (a : Word) : RecordLength.Statement (.wAddress a) := fun _ => rfl
theorem RecordLength.wHeader (m : BitVec 1) (r : BitVec 7) (len : Byte) :
    RecordLength.Statement (.wHeader m r len) := fun _ => rfl
theorem RecordLength.wPayload (h l : Byte) : RecordLength.Statement (.wPayload h l) := fun _ => rfl
theorem RecordLength.wChecksum (c : Word) : RecordLength.Statement (.wChecksum c) := fun _ => rfl
theorem RecordLength.wTerminator : RecordLength.Statement .wTerminator := fun _ => rfl

end Sys2Proof.Laws
end

