-- ==== Sys2Proof/Laws/Step.lean ====
section
/-! SUPPORT. What a fetch and a step can do, said once. -/

namespace Sys2Proof.Machine

/-- A fetch that runs an instruction changes the pending inputs alone. -/
theorem fetch_run_state {s t : State} {i : Instr} (h : fetch s = .run i t) :
    t = { s with pending := t.pending } := by
  unfold fetch at h
  split at h
  · cases h
  · split at h
    · split at h
      · cases h; rfl
      · cases h
    · cases h
  · split at h
    · cases h; rfl
    · cases h

/-- A step that answers a next state was idle or ran one instruction. -/
theorem step_next_cases {s t : State} (h : step s = .next t) :
    (fetch s = .idle ∧ t = s) ∨ ∃ i s', fetch s = .run i s' ∧ exec i s' = .next t := by
  unfold step at h
  split at h
  · rename_i hf; exact .inl ⟨hf, by cases h; rfl⟩
  · cases h
  · rename_i i s' hf; exact .inr ⟨i, s', hf, h⟩

/-- The invariant does not look at the pending inputs. -/
theorem State.Inv.pending {s : State} (h : s.Inv) (q : List Input) : ({ s with pending := q } : State).Inv :=
  { h with }

/-- A run of operations, taken apart at its first one. -/
theorem execAll_cons_next {i : Instr} {is : List Instr} {s u : State}
    (h : execAll (i :: is) s = .next u) : ∃ t, exec i s = .next t ∧ execAll is t = .next u := by
  unfold execAll at h
  split at h
  · rename_i t ht; exact ⟨t, ht, h⟩
  · cases h
  · cases h

/-- What a `SEND` that answers a next state did (45_session_ops.md rules R131, R132). -/
theorem execSend_next {sel : Dest} {p : List Byte} {s t : State} (h : execSend sel p s = .next t) :
    (s.busy = true ∧ t = s.respond .busy) ∨
    (s.busy = false ∧ payloadLegal p = true ∧ t = s.sendFrame sel p) := by
  unfold execSend at h
  split at h
  · rename_i hb; cases h; exact .inl ⟨hb, rfl⟩
  · rename_i hb
    split at h
    · rename_i hp
      injection h with h
      exact .inr ⟨by simpa using hb, hp, h.symm⟩
    · cases h

/-- What an `ENCODE` that answers a next state did (41_frame_encode.md rule R84). -/
theorem execEncode_next {d : Word} {r : Byte} {p : List Byte} {s t : State}
    (h : execEncode d r p s = .next t) :
    payloadLegal p = true ∧
    t = ({ s with crc := encodeEngine s.crc d r p } : State).respond (.frame (encodeFrame d r p)) := by
  unfold execEncode at h
  split at h
  · rename_i hp
    injection h with h
    exact ⟨hp, h.symm⟩
  · cases h

end Sys2Proof.Machine
end

