-- ==== Sys2Proof/Laws/Streams.lean ====
section
/-! SUPPORT. Bit streams: words and bytes packed from bits give the bits back. -/

namespace Sys2Proof

/-- One more bit at the end. -/
theorem bitsToNat_concat (bits : List Bool) (b : Bool) : bitsToNat (bits ++ [b]) = 2 * bitsToNat bits + b.toNat := by
  simp [bitsToNat]

/-- The bits of the number a bit string reads as. -/
theorem testBit_bitsToNat (bits : List Bool) (k : Nat) (hk : k < bits.length) :
    (bitsToNat bits).testBit (bits.length - 1 - k) = bits.getD k false := by
  induction bits using List.reverseRecOn with
  | nil => simp at hk
  | append_singleton bits b ih =>
    rw [bitsToNat_concat]
    simp only [List.length_append, List.length_singleton] at hk ⊢
    by_cases h : k < bits.length
    · have h1 : bits.length + 1 - 1 - k = (bits.length - 1 - k) + 1 := by omega
      have h2 : (2 * bitsToNat bits + b.toNat) / 2 = bitsToNat bits := by
        cases b <;> (simp; try omega)
      rw [h1, Nat.testBit_succ, h2, ih h]
      simp [List.getD, List.getElem?_append_left h]
    · have h1 : k = bits.length := by omega
      subst h1
      have h2 : bits.length + 1 - 1 - bits.length = 0 := by omega
      rw [h2, Nat.testBit_zero]
      cases b <;> simp [List.getD]

/-- The bits of a number read from exactly `w` bits. -/
theorem getMsbD_bitsToNat (w : Nat) (bits : List Bool) (hw : bits.length = w) (i : Nat) (hi : i < w) :
    (BitVec.ofNat w (bitsToNat bits)).getMsbD i = bits.getD i false := by
  have h := testBit_bitsToNat bits i (by omega)
  rw [hw] at h
  rw [BitVec.getMsbD_eq_getLsbD, BitVec.getLsbD_ofNat, h]
  simp [hi, show w - 1 - i < w by omega]

/-- The bits of the word at an index of a bit stream. -/
theorem wordBits_streamWord (bits : List Bool) (k : Nat) :
    wordBits (streamWord bits k) = firstBits 16 (bits.drop (16 * k)) := by
  apply List.ext_getElem
  · simp
  · intro i h₁ h₂
    have hi : i < 16 := by simpa using h₁
    have := getMsbD_bitsToNat 16 (firstBits 16 (bits.drop (16 * k))) (by simp) i hi
    simp [wordBits, streamWord, this, List.getD, hi]

/-- The bits of the byte at an index of a bit stream. -/
theorem byteBits_streamByte (bits : List Bool) (k : Nat) :
    byteBits (streamByte bits k) = firstBits 8 (bits.drop (8 * k)) := by
  apply List.ext_getElem
  · simp
  · intro i h₁ h₂
    have hi : i < 8 := by simpa using h₁
    have := getMsbD_bitsToNat 8 (firstBits 8 (bits.drop (8 * k))) (by simp) i hi
    simp [byteBits, streamByte, this, List.getD, hi]

/-- A stream that a whole number of chunks holds, cut into chunks, is the stream and zeros. -/
theorem flatMap_chunks (m n : Nat) (bits : List Bool) (h : bits.length ≤ m * n) :
    (List.range n).flatMap (fun k => firstBits m (bits.drop (m * k))) =
      bits ++ List.replicate (m * n - bits.length) false := by
  induction n generalizing bits with
  | zero => simp at h; subst h; rfl
  | succ n ih =>
    have hd : (bits.drop m).length ≤ m * n := by
      rw [List.length_drop]; rw [Nat.mul_succ] at h; omega
    have ih := ih (bits.drop m) hd
    rw [List.range_succ_eq_map, List.flatMap_cons, List.flatMap_map]
    have hk : (fun k => firstBits m (bits.drop (m * k.succ))) =
        fun k => firstBits m ((bits.drop m).drop (m * k)) := by
      funext k; rw [List.drop_drop, Nat.mul_succ, Nat.add_comm]
    rw [hk, ih]
    apply List.ext_getElem
    · simp [Nat.mul_succ]; rw [Nat.mul_succ] at h; omega
    · intro i h₁ h₂
      by_cases hi : i < m
      · rw [List.getElem_append_left (by simpa using hi)]
        by_cases hb : i < bits.length
        · simp [firstBits, hb]
        · rw [List.getElem_append_right (by omega)]
          simp [firstBits, hb]
      · rw [List.getElem_append_right (by simp; omega)]
        simp only [firstBits_length]
        by_cases hb : i < bits.length
        · rw [List.getElem_append_left hb, List.getElem_append_left (by simp; omega)]
          simp [show m + (i - m) = i by omega]
        · rw [List.getElem_append_right (by simp; omega), List.getElem_append_right (by omega)]
          simp

/-- The bits of a packed stream. -/
theorem packWords_bits (n : Nat) (bits : List Bool) (h : bits.length ≤ 16 * n) :
    (packWords n bits).flatMap wordBits = bits ++ List.replicate (16 * n - bits.length) false := by
  rw [← flatMap_chunks 16 n bits h]
  simp [packWords, List.flatMap_map, wordBits_streamWord]

/-- The bits of a packed stream. -/
theorem packBytes_bits (n : Nat) (bits : List Bool) (h : bits.length ≤ 8 * n) :
    (packBytes n bits).flatMap byteBits = bits ++ List.replicate (8 * n - bits.length) false := by
  rw [← flatMap_chunks 8 n bits h]
  simp [packBytes, List.flatMap_map, byteBits_streamByte]

/-- The bits of a word are those of its high byte and then those of its low byte (20_memory.md rules
R39, R40). -/
theorem wordBits_eq (w : Word) : wordBits w = byteBits (hi w) ++ byteBits (lo w) := by
  apply List.ext_getElem
  · simp
  · intro i h₁ h₂
    have hi : i < 16 := by simpa using h₁
    by_cases h : i < 8
    · rw [List.getElem_append_left (by simpa using h)]
      simp [wordBits, byteBits, BitVec.getMsbD, Sys2Proof.hi, h, hi, show 7 - i < 8 by omega, show 8 + (7 - i) = 15 - i by omega]
    · rw [List.getElem_append_right (by simpa using h)]
      simp [wordBits, byteBits, BitVec.getMsbD, Sys2Proof.lo, hi, show i - 8 < 8 by omega, show 7 - (i - 8) = 15 - i by omega]
      omega

/-- The bits of words are the bits of their bytes (20_memory.md rule R41). -/
theorem wordsToBytes_bits (ws : List Word) : (wordsToBytes ws).flatMap byteBits = ws.flatMap wordBits := by
  induction ws with
  | nil => rfl
  | cons w ws ih => simp [wordBits_eq, ih]

end Sys2Proof
end

