-- ==== Sys2Proof/Tests/Slice0.lean ====
section
/-! SUPPORT. Tests. Expected values come from the tables of spec 95_test_vectors.md (named V-… in the
docstrings), from the operation map of 30_encoding.md rules R67 to R76, and from the opcode table. -/

namespace Sys2Proof.Tests

open Sys2Proof.Machine Sys2Proof.Claims

/-! Small states. -/

/-- Bytes from numbers. -/
def bytes (ns : List Nat) : List Byte := ns.map (BitVec.ofNat 8)

/-- Words from numbers. -/
def words (ns : List Nat) : List Word := ns.map (BitVec.ofNat 16)

/-- A receive image: the given bytes, filled to 36. -/
def image (fill : Nat) (ns : List Nat) : List Byte :=
  bytes ns ++ List.replicate (36 - ns.length) (BitVec.ofNat 8 fill)

/-- The node of the vectors: self `3234`, peer `1111`, broadcast `5555`, reserve `00`. -/
def node : State :=
  { State.reset with selfAddr := 0x3234#16, peerAddr := 0x1111#16, bcastAddr := 0x5555#16, reserve := 0x00#8 }

/-- The state of V-SES-16. -/
def busyNode : State := { node with busy := true, sent := 2, received := 1, missed := 4 }

/-- A node whose peer is the vectors' node. -/
def sender : State := { node with peerAddr := 0x3234#16 }

/-- The state an operation leaves. -/
def after (i : Instr) (s : State) : Option State :=
  match exec i s with
  | .next t => some t
  | .fault _ => none
  | .refused _ => none

/-- What an operation returns. -/
def returned (i : Instr) (s : State) : Option Result := (after i s).map State.result

/-- Why an operation faults. -/
def faultOf (i : Instr) (s : State) : Option Fault :=
  match exec i s with
  | .next _ => none
  | .fault r => some r
  | .refused _ => none

/-- Why a step is refused. -/
def refusalOfStep (s : State) : Option Refusal :=
  match step s with
  | .next _ => none
  | .fault _ => none
  | .refused r => some r

/-- Whether an answer is a next state. -/
def goesOn (a : Answer) : Bool :=
  match a with
  | .next _ => true
  | .fault _ => false
  | .refused _ => false

theorem goesOn_spec {a : Answer} (h : goesOn a = true) : ∃ t, a = .next t := by
  cases a with
  | next t => exact ⟨t, rfl⟩
  | fault _ => cases h
  | refused _ => cases h

/-- A node with a record of an agent pending. -/
def offered (a : Agent) (ns : List Nat) : State := { node with pending := [.record a (bytes ns)] }

/-! WellFormed: each check refuses an ill-formed term. -/

theorem test_wf_send : Instr.wellFormed (.send .peer (List.replicate 256 0#8)) = false := by decide +kernel
theorem test_wf_crc16 : Instr.wellFormed (.crc16 (List.replicate 256 0#8)) = false := by decide +kernel
theorem test_wf_encode : Instr.wellFormed (.encode 0#16 0#8 (List.replicate 256 0#8)) = false := by decide +kernel
theorem test_wf_stuff : Instr.wellFormed (.stuff (List.replicate 256 0#16)) = false := by decide +kernel
theorem test_wf_unstuff : Instr.wellFormed (.unstuff (List.replicate 256 0#8)) = false := by decide +kernel
theorem test_wf_validate : Instr.wellFormed (.validate 0#16 0#16 (List.replicate 256 0#8)) = false := by decide +kernel
theorem test_wf_image_short : Instr.wellFormed (.evFrameBoundary (List.replicate 35 0#8)) = false := by decide
theorem test_wf_image_long : Instr.wellFormed (.evFrameBoundary (List.replicate 37 0#8)) = false := by decide
theorem test_wf_reserved0B0F : Instr.wellFormed (.reserved0B0F 2#3) = false := by decide
theorem test_wf_reservedHighBits : Instr.wellFormed (.reservedHighBits 0x1F#8) = false := by decide
theorem test_wf_checksum : Instr.wellFormed (.wChecksum 0xFFFF#16) = false := by decide

/-! Decoding: one record for each constructor, written out from R67 to R73. -/

theorem test_decode_reset : decode (bytes [0b00000000]) = .ok (.reset, []) := by decide
theorem test_decode_cfgSelf : decode (bytes [0b00000001, 0x32, 0x34]) = .ok (.cfgSelf 0x3234#16, []) := by decide
theorem test_decode_cfgPeer : decode (bytes [0b00000010, 0x11, 0x22]) = .ok (.cfgPeer 0x1122#16, []) := by decide
theorem test_decode_cfgBcast : decode (bytes [0b00000011, 0x55, 0x56]) = .ok (.cfgBcast 0x5556#16, []) := by decide
theorem test_decode_cfgReserve : decode (bytes [0b00000100, 0xA5]) = .ok (.cfgReserve 0xA5#8, []) := by decide
theorem test_decode_send :
    decode (bytes [0b00000101, 0x01, 0x02, 0xEA, 0x9C]) = .ok (.send .broadcast [0xEA#8, 0x9C#8], []) := by decide
theorem test_decode_rd : decode (bytes [0b00000110, 0x05]) = .ok (.rd .sent, []) := by decide
theorem test_decode_evTxComplete : decode (bytes [0b00001000]) = .ok (.evTxComplete, []) := by decide
theorem test_decode_evFrameBoundary :
    decode (0b00001001#8 :: image 0xEE [0x32, 0x34]) = .ok (.evFrameBoundary (image 0xEE [0x32, 0x34]), []) := by
  decide
theorem test_decode_evRxOverrun : decode (bytes [0b00001010]) = .ok (.evRxOverrun, []) := by decide
/-- The record of V-CRC-8. -/
theorem test_decode_crc16Update :
    decode (bytes [0b00010000, 0x31, 0xFF, 0xFF]) = .ok (.crc16Update 0x31#8 0xFFFF#16, []) := by decide
/-- The record of V-CRC-15. -/
theorem test_decode_crc16 :
    decode (bytes [0b00010001, 0x06, 0x32, 0x34, 0x00, 0x02, 0x12, 0x34]) =
      .ok (.crc16 (bytes [0x32, 0x34, 0x00, 0x02, 0x12, 0x34]), []) := by decide
/-- The record of V-ENC-2. -/
theorem test_decode_encode :
    decode (bytes [0b00010010, 0x32, 0x34, 0x00, 0x02, 0x12, 0x34]) =
      .ok (.encode 0x3234#16 0x00#8 [0x12#8, 0x34#8], []) := by decide
/-- The record of V-STF-21. -/
theorem test_decode_stuff :
    decode (bytes [0b00010011, 0x05, 0x32, 0x34, 0x00, 0x02, 0x12, 0x34, 0x95, 0x1B, 0xFF, 0xFF]) =
      .ok (.stuff (words [0x3234, 0x0002, 0x1234, 0x951B, 0xFFFF]), []) := by decide
/-- The record of V-UNS-2. -/
theorem test_decode_unstuff :
    decode (bytes [0b00010100, 0x06, 0x04, 0x10, 0x40, 0x00, 0xFF, 0xFF]) =
      .ok (.unstuff (bytes [0x04, 0x10, 0x40, 0x00, 0xFF, 0xFF]), []) := by decide
/-- The record of V-VAL-1. -/
theorem test_decode_validate :
    decode (bytes [0b00010101, 0x32, 0x34, 0x55, 0x55, 0x08, 0x32, 0x34, 0x00, 0x02, 0x12, 0x34, 0x95, 0x1B]) =
      .ok (.validate 0x3234#16 0x5555#16 (bytes [0x32, 0x34, 0x00, 0x02, 0x12, 0x34, 0x95, 0x1B]), []) := by
  decide
theorem test_decode_reserved07 : decode (bytes [0b00000111]) = .ok (.reserved07, []) := by decide
theorem test_decode_reserved0B0F : decode (bytes [0b00001011]) = .ok (.reserved0B0F 3#3, []) ∧
    decode (bytes [0b00001111]) = .ok (.reserved0B0F 7#3, []) := by decide
theorem test_decode_reserved1617 : decode (bytes [0b00010110]) = .ok (.reserved1617 0#1, []) ∧
    decode (bytes [0b00010111]) = .ok (.reserved1617 1#1, []) := by decide
theorem test_decode_reservedClass11 : decode (bytes [0b00011000]) = .ok (.reservedClass11 0#3, []) ∧
    decode (bytes [0b00011111]) = .ok (.reservedClass11 7#3, []) := by decide
theorem test_decode_reservedHighBits : decode (bytes [0b00100000]) = .ok (.reservedHighBits 0x20#8, []) ∧
    decode (bytes [0b11111111]) = .ok (.reservedHighBits 0xFF#8, []) := by decide
theorem test_decode_wAddress : decodeFrameWord .address 0x3234#16 = some (.wAddress 0x3234#16) := by decide
/-- The header of V-ENC-12: mutation bit 1, reserve `00`, length 2. -/
theorem test_decode_wHeader : decodeFrameWord .header 0b1_0000000_00000010#16 = some (.wHeader 1#1 0#7 2#8) := by
  decide
theorem test_decode_wPayload : decodeFrameWord .payload 0x1234#16 = some (.wPayload 0x12#8 0x34#8) := by decide
theorem test_decode_wChecksum : decodeFrameWord .checksum 0x951B#16 = some (.wChecksum 0x951B#16) ∧
    decodeFrameWord .checksum 0xFFFF#16 = none := by decide
theorem test_decode_wTerminator : decodeFrameWord .terminator 0xFFFF#16 = some .wTerminator ∧
    decodeFrameWord .terminator 0xFFFE#16 = none := by decide

/-- V-SES-17, and a record cut short. -/
theorem test_decode_rejects :
    decode (bytes [0x05, 0x02, 0x00]) = .error (.reservedSelector 2#8) ∧
    decode (bytes [0x06, 0x08]) = .error (.reservedRegister 8#8) ∧
    decode (bytes [0x05, 0x00, 0x02, 0xAA]) = .error .truncated ∧
    decode [] = .error .truncated := by decide

/-- Two records in a row: the first is read, the second stays. -/
theorem test_decode_leaves_the_rest :
    decode (bytes [0x04, 0x80, 0x08]) = .ok (.cfgReserve 0x80#8, [0x08#8]) := by decide

theorem test_encode_send : encode (.send .broadcast [0xEA#8, 0x9C#8]) = bytes [0x05, 0x01, 0x02, 0xEA, 0x9C] := by
  decide
theorem test_encode_header : encode (.wHeader 1#1 0x25#7 0x04#8) = bytes [0xA5, 0x04] := by decide

/-- The opcode table numbers a byte row's bits from the operation byte; operand bytes are zeros. -/
theorem test_table_word : decodeTableWord 8 0x02 = some (.cfgPeer 0#16) ∧ decodeTableWord 8 0x15 = some (.validate 0#16 0#16 []) ∧
    decodeTableWord 16 0xFFFF = some .wTerminator ∧ decodeTableWord 16 0x3234 = some (.wAddress 0x3234#16) := by
  decide

/-! Steps. -/

/-- A table word runs as the very next step: `CFG_RESERVE 0`, `EV_TX_COMPLETE`, a reserved byte. -/
theorem test_fetch_word :
    (match step (node.withFetchWord 8 0x08) with | .next t => some (t.sent, t.pending) | _ => none) = some (1, []) ∧
    refusalOfStep (State.reset.withFetchWord 8 0x0C) = some (.reservedOperation 0x0C#8) ∧
    refusalOfStep (State.reset.withFetchWord 16 0xFFFF) = some (.frameWordIsNoOperation .terminator) := by decide

theorem test_step_wrong_agent : refusalOfStep (offered .producer [0x08]) = some (.wrongAgent .producer) := by decide

theorem test_step_bad_word :
    refusalOfStep { node with pending := [.frameWord .checksum 0xFFFF#16] } =
      some (.notAFrameWord .checksum 0xFFFF#16) := by decide

/-! Producer commands. -/

/-- V-SES-1. -/
theorem test_reset : (after .reset busyNode).map
    (fun t => (t.busy, t.rxState, t.sent, t.received, t.missed)) = some (false, .idle, 0, 0, 0) := by decide

/-- V-SES-2. -/
theorem test_cfgSelf : ((after (.cfgSelf 0x3234#16) State.reset).bind (returned (.rd .selfAddr))) =
    some (.u32 0x00003234#32) := by decide

/-- V-SES-18. -/
theorem test_cfgPeer : (after (.cfgPeer 0x2222#16) busyNode).map (fun t => (t.peerAddr, t.selfAddr)) =
    some (0x2222#16, 0x3234#16) := by decide

theorem test_cfgBcast : (after (.cfgBcast 0x7777#16) node).map (fun t => (t.bcastAddr, t.peerAddr)) =
    some (0x7777#16, 0x1111#16) := by decide

theorem test_cfgReserve : (after (.cfgReserve 0xA5#8) node).map State.reserve = some 0xA5#8 := by decide

/-- V-SES-3. -/
theorem test_send : (after (.send .peer [0x12#8, 0x34#8]) node).map
    (fun t => (t.result, t.busy, t.txuWords.take 5, t.txsWords 6, t.txsLen)) =
    some (.ok, true, words [0x1111, 0x0002, 0x1234, 0x13A1, 0xFFFF],
      words [0x1111, 0x0410, 0x848D, 0x0674, 0x2000, 0xFFFF], 6) := by decide +kernel

/-- V-SES-5, V-SES-6, V-SES-7. -/
theorem test_send_stops : returned (.send .peer [0xAA#8]) busyNode = some .busy ∧
    faultOf (.send .peer [0xAA#8]) node = some (.contractViolation 1) ∧
    faultOf (.send .peer (List.replicate 18 0#8)) node = some (.contractViolation 18) := by decide

/-- V-SES-16. -/
theorem test_rd : returned (.rd .status) busyNode = some (.u32 1) ∧ returned (.rd .sent) busyNode = some (.u32 2) ∧
    returned (.rd .received) busyNode = some (.u32 1) ∧ returned (.rd .missed) busyNode = some (.u32 4) := by decide

/-! Transport events. -/

/-- V-SES-10. -/
theorem test_evTxComplete : (after .evTxComplete { busyNode with sent := 0xFFFFFFFF#32 }).map
    (fun t => (t.sent, t.busy, t.trace)) = some (0, false, [.txCursorReset]) := by decide

/-- V-SES-9. -/
theorem test_evTxComplete_spurious : (after .evTxComplete { node with sent := 5 }).map
    (fun t => (t.sent, t.busy)) = some (6, false) := by decide

/-- The image of V-SES-11. -/
def goodImage : List Byte := image 0xEE [0x32, 0x34, 0x10, 0x41, 0x42, 0x46, 0x92, 0xA3, 0x60, 0x00, 0xFF, 0xFF]

/-- V-SES-11. -/
theorem test_evFrameBoundary_accept : (after (.evFrameBoundary goodImage) node).map
    (fun t => (t.received, t.missed, t.rxuBytes.take 9, t.rxuBits, t.trace)) =
    some (1, 0, bytes [0x32, 0x34, 0x00, 0x02, 0x12, 0x34, 0x95, 0x1B, 0x00], 75, [.rearmReceive]) := by
  decide +kernel

/-- V-SES-14. -/
theorem test_evFrameBoundary_reject : (after (.evFrameBoundary (List.replicate 36 0xAA#8)) node).map
    (fun t => (t.received, t.missed, t.rxuBits, t.rxVerdict)) = some (0, 1, 288, some .invalidAddress) := by
  decide +kernel

/-- V-SES-15. -/
theorem test_evRxOverrun : (after .evRxOverrun { node with missed := 3 }).map
    (fun t => (t.missed, t.rxState, t.trace)) = some (3, .idle, [.rearmReceive]) := by decide

/-! Micro-operations. -/

/-- V-CRC-9, V-CRC-2. -/
theorem test_crc16Update : returned (.crc16Update 0xA5#8 0x1234#16) node = some (.u16 0x37B2#16) ∧
    returned (.crc16Update 0x01#8 0x0000#16) node = some (.u16 0x8005#16) := by decide

/-- V-CRC-17, V-CRC-10. -/
theorem test_crc16 :
    returned (.crc16 (bytes [0x31, 0x32, 0x33, 0x34, 0x35, 0x36, 0x37, 0x38, 0x39])) node = some (.u16 0xAEE7#16) ∧
    returned (.crc16 []) node = some (.u16 0xFFFF#16) := by decide +kernel

/-- V-ENC-12: the collision rule acts. -/
theorem test_encode_collision : returned (.encode 0x5555#16 0x00#8 [0xEA#8, 0x9C#8]) node =
    some (.frame (words [0x5555, 0x8002, 0xEA9C, 0x7FC0, 0xFFFF])) := by decide +kernel

/-- V-ENC-3. -/
theorem test_encode : returned (.encode 0x5555#16 0xA5#8 (bytes [0xDE, 0xAD, 0xBE, 0xEF])) node =
    some (.frame (words [0x5555, 0xA504, 0xDEAD, 0xBEEF, 0x0C07, 0xFFFF])) := by decide +kernel

/-- V-STF-5. -/
theorem test_stuff : returned (.stuff (words [0x07C0, 0xFFFF])) node =
    some (.stuffed (words [0x07D0, 0x4000, 0xFFFF]) 3) := by decide +kernel

/-- V-STF-17: a thirteenth word is ignored. -/
theorem test_stuff_limit : returned (.stuff (List.replicate 12 0#16 ++ [0x1234#16])) node =
    some (.stuffed (words [0x0410, 0x4104, 0x1041, 0x0410, 0x4104, 0x1041, 0x0410, 0x4104, 0x1041, 0x0410,
      0x4104, 0x1041, 0x0410, 0x4104, 0x1000, 0xFFFF]) 16) := by decide +kernel

/-- V-UNS-4: a skipped bit is discarded whatever its value. -/
theorem test_unstuff : returned (.unstuff (bytes [0xFC, 0x0F, 0xFF])) node =
    some (.unstuffed (image 0 [0xF8, 0x3C]) 14) := by decide +kernel

/-- V-UNS-14: the scan stops behind byte 35. -/
theorem test_unstuff_limit : returned (.unstuff (List.replicate 40 0#8)) node =
    some (.unstuffed (List.replicate 36 0#8) 240) := by decide +kernel

/-- V-VAL-3: high byte of self, low byte of broadcast. -/
theorem test_validate_mixed :
    returned (.validate 0x3234#16 0x5555#16 (bytes [0x32, 0x55, 0x00, 0x02, 0x12, 0x34, 0x04, 0x60])) node =
      some (.verdict .accept) := by decide +kernel

/-- V-VAL-14, V-VAL-12, V-VAL-21: the first failing check decides. -/
theorem test_validate_rejects :
    returned (.validate 0x3234#16 0x5555#16 (bytes [0x99, 0x99, 0x00, 0x11])) node = some (.verdict .invalidAddress) ∧
    returned (.validate 0x3234#16 0x5555#16 (bytes [0x32, 0x34, 0x00, 0xFF])) node = some (.verdict .invalidLength) ∧
    returned (.validate 0x3234#16 0x5555#16 (bytes [0x32, 0x34, 0x00, 0x02, 0x12, 0x34, 0x1B, 0x95])) node =
      some (.verdict .checksumMismatch) := by decide +kernel

/-! Text (R75), result codes (R72), pseudo-operations (R76). -/

theorem test_text : instrText (.send .broadcast [0xEA#8, 0x9C#8]) = some "SEND BROADCAST, [EA 9C]" ∧
    instrText (.rd .sent) = some "RD SENT" ∧ resultText (.u32 1) = some "0x00000001" := by decide +kernel

theorem test_result_codes : Result.ok.code = some 0 ∧ Result.busy.code = some 1 ∧
    Verdict.invalidAddress.code = 2 ∧ Verdict.invalidLength.code = 3 ∧ Verdict.checksumMismatch.code = 4 := by decide

theorem test_owners : node.txsOwner = .producer ∧ busyNode.txsOwner = .transport ∧ node.rxsOwner = .transport := by
  decide

/-! Witnesses: for each obligation with hypotheses, a state and operands that meet them, at the ends of
their ranges, one for each clause. -/

theorem witness_ReadReturnsTheNamedRegister : 8 ≤ (0x08#8).toNat ∧ 8 ≤ (0xFF#8).toNat := by decide

theorem witness_SendWhileBusyReturnsBusy : busyNode.busy = true := rfl

theorem witness_SendOfABadLengthFaults : node.busy = false ∧
    ([0xAA#8].length % 2 = 1 ∨ 16 < [0xAA#8].length) ∧
    ((List.replicate 17 0#8).length % 2 = 1 ∨ 16 < (List.replicate 17 0#8).length) ∧
    ((List.replicate 18 0#8).length % 2 = 1 ∨ 16 < (List.replicate 18 0#8).length) := by decide

theorem witness_SendHandsOverTheStuffedFrame :
    node.busy = false ∧ legal [] ∧ legal [0x12#8, 0x34#8] ∧ legal (List.replicate 16 0#8) := by decide

theorem witness_SendLeavesTheRestUnchanged :
    (∃ t, exec (.send .peer [0x12#8, 0x34#8]) node = .next t) ∧
    (∃ t, exec (.send .peer [0xAA#8]) busyNode = .next t) := ⟨goesOn_spec (by decide), goesOn_spec (by decide)⟩

/-- V-ENC-18: the destination `FFFF`. V-ENC-17: the payload `FF FF 12 34`; and a last pair `FF FF`. -/
theorem witness_OrganicTerminatorTruncatesTheFrame : node.busy = false ∧
    destinationOf { node with peerAddr := 0xFFFF#16 } .peer = 0xFFFF#16 ∧
    legal (bytes [0xFF, 0xFF, 0x12, 0x34]) ∧ (bytes [0xFF, 0xFF, 0x12, 0x34])[2 * 0]? = some 0xFF#8 ∧
    (bytes [0xFF, 0xFF, 0x12, 0x34])[2 * 0 + 1]? = some 0xFF#8 ∧
    legal (List.replicate 16 0xFF#8) ∧ (List.replicate 16 0xFF#8)[2 * 7]? = some 0xFF#8 ∧
    (List.replicate 16 0xFF#8)[2 * 7 + 1]? = some 0xFF#8 := by decide

/-- Counters about to wrap. -/
theorem witness_CountersWrapToZero :
    (∃ t, exec .evTxComplete { busyNode with sent := 0xFFFFFFFF#32 } = .next t) ∧
    (∃ t, exec (.evFrameBoundary goodImage) { node with received := 0xFFFFFFFF#32 } = .next t) :=
  ⟨goesOn_spec (by decide), goesOn_spec (by decide)⟩

/-- V-SES-11 and V-SES-13: an accepted image and a rejected one. -/
theorem witness_FrameBoundaryUnstuffsJudgesAndCounts :
    goodImage.length = 36 ∧
    validateFrame node.selfAddr node.bcastAddr (unstuffBytes goodImage) = .accept ∧
    (image 0xFF []).length = 36 ∧
    validateFrame node.selfAddr node.bcastAddr (unstuffBytes (image 0xFF [])) ≠ .accept := by decide +kernel

theorem witness_FrameBoundaryLeavesTheTransmitSideUnchanged :
    ∃ t, exec (.evFrameBoundary goodImage) busyNode = .next t :=
  goesOn_spec (by decide)

theorem witness_ReceptionIgnoresTheTransmitSide :
    goodImage.length = 36 ∧ node.selfAddr = sender.selfAddr ∧ node.bcastAddr = sender.bcastAddr ∧
    node.received = sender.received ∧ node.missed = sender.missed ∧ node.peerAddr ≠ sender.peerAddr := by decide

theorem witness_ReceiveEventsCommuteAndSendRacesCompletion :
    busyNode.busy = true ∧ legal [] ∧ legal (List.replicate 16 0#8) := by decide

/-- The longest record. -/
theorem witness_CrcFoldsTheUpdateFromAllOnes : (List.replicate 255 0#8).length ≤ 255 := by
  rw [List.length_replicate]

/-- The longest record. -/
theorem witness_ValidateReportsTheFirstFailingCheck : (List.replicate 255 0#8).length ≤ 255 := by
  rw [List.length_replicate]

theorem witness_CrcIsLinear : [0x12#8, 0x34#8].length = [0x56#8, 0x78#8].length := rfl

theorem witness_SingleBitFlipChangesTheCrc :
    0 < [0x12#8, 0x34#8].length ∧ 1 < [0x12#8, 0x34#8].length ∧ 0 < 8 ∧ 7 < 8 := by decide

theorem witness_HeaderFlipXorsAKnownValue :
    (bytes [0x53, 0x30, 0x00, 0x00]).length = 4 ∧ (bytes [0x55, 0x55, 0x00, 0x02, 0xEA, 0x9C]).length = 6 ∧
    (List.replicate 20 0#8).length = 20 := by decide

theorem witness_EncodeBuildsTheFrame :
    legal [] ∧ legal (List.replicate 16 0#8) ∧ 7 < (List.replicate 16 0#8).length / 2 := by decide

/-- V-ENC-13: the collision rule acts. -/
theorem witness_ChecksumIsNeverTheSentinel : ∃ t ws,
    exec (.encode 0x5330#16 0x00#8 []) node = .next t ∧ t.result = .frame ws := by
  obtain ⟨t, ht⟩ := goesOn_spec (a := exec (.encode 0x5330#16 0x00#8 []) node) (by decide)
  obtain ⟨-, rfl⟩ := execEncode_next ht
  exact ⟨_, _, ht, rfl⟩

theorem witness_EncodeOfABadLengthFaults : node.busy = false ∧
    ([0x7E#8].length % 2 = 1 ∨ 16 < [0x7E#8].length) ∧
    ((List.replicate 18 0#8).length % 2 = 1 ∨ 16 < (List.replicate 18 0#8).length) := by decide

theorem witness_FourAddressesPassTheFilter : ∃ t,
    exec (.validate 0x3234#16 0x5555#16
      (hi 0x3255#16 :: lo 0x3255#16 :: bytes [0x00, 0x02, 0x12, 0x34, 0x04, 0x60])) node = .next t :=
  goesOn_spec (by decide)

theorem witness_EncodedFramesAreAccepted :
    legal (List.replicate 16 0#8) ∧ legal [] ∧ admits 0x3234#16 0x5555#16 0x3234#16 ∧
    admits 0x3234#16 0x5555#16 0x3255#16 := by decide

theorem witness_FlippedPayloadBitIsAMismatch :
    legal (List.replicate 16 0#8) ∧ admits 0x3234#16 0x5555#16 0x5555#16 ∧
    0 < (List.replicate 16 0#8).length ∧ 15 < (List.replicate 16 0#8).length ∧ 0 < 8 ∧ 7 < 8 := by decide

theorem witness_StuffedSizeIsBounded :
    (List.replicate 12 0xFFFF#16).length = 12 ∧ 16 * (scannedWords (List.replicate 12 0xFFFF#16)).length < 5 ∧
    (List.replicate 12 0x0000#16).length = 12 ∧ 5 ≤ 16 * (scannedWords (List.replicate 12 0x0000#16)).length ∧
    legal (List.replicate 16 0#8) := by decide +kernel

/-- V-STF-2: `00000[1]00000[1]00000[1]0`. -/
theorem witness_FiveEqualBitsAreFollowedByTheComplement :
    stuffedRegion none (words [0x0000, 0xFFFF]) =
      [] ++ List.replicate 5 false ++ ([true] ++ List.replicate 5 false ++ [true] ++ List.replicate 5 false ++ [true, false]) := by
  decide

/-- V-ENC-1. -/
theorem test_smallest_frame : encodeFrame 0x3234#16 0x00#8 [] = words [0x3234, 0x0000, 0xEBBE, 0xFFFF] := by
  decide +kernel

/-- V-ENC-4. -/
theorem test_largest_frame : encodeFrame 0x3234#16 0x00#8 (bytes (List.range 16)) =
    words [0x3234, 0x0010, 0x0001, 0x0203, 0x0405, 0x0607, 0x0809, 0x0A0B, 0x0C0D, 0x0E0F, 0xDBF1, 0xFFFF] := by
  decide +kernel

/-- The smallest and the largest frame. -/
theorem witness_UnstuffOfStuffOfEncodeIsTheFrame :
    legal [] ∧ (∀ w ∈ (encodeFrame 0x3234#16 0x00#8 []).dropLast, w ≠ 0xFFFF#16) ∧
    legal (bytes (List.range 16)) ∧
    (∀ w ∈ (encodeFrame 0x3234#16 0x00#8 (bytes (List.range 16))).dropLast, w ≠ 0xFFFF#16) := by
  rw [test_smallest_frame, test_largest_frame]
  exact ⟨by decide, by simp [words], by decide, by simp [words]⟩

/-- V-ENC-2. -/
theorem test_sent_frame :
    sentFrame sender .peer [0x12#8, 0x34#8] = words [0x3234, 0x0002, 0x1234, 0x951B, 0xFFFF] := by decide +kernel

theorem witness_SentFramesAreReceived :
    sender.busy = false ∧ legal [0x12#8, 0x34#8] ∧
    (∀ w ∈ (sentFrame sender .peer [0x12#8, 0x34#8]).dropLast, w ≠ 0xFFFF#16) ∧
    admits node.selfAddr node.bcastAddr (destinationOf sender .peer) := by
  rw [test_sent_frame]
  exact ⟨by decide, by decide, by simp [words], by decide⟩

theorem witness_SentFramesAreReceived_image :
    (after (.send .peer [0x12#8, 0x34#8]) sender).map
      (fun a' => decide ((a'.wireBytes ++ List.replicate 24 0xEE#8).length = 36)) = some true := by decide +kernel

theorem witness_DecodeOfEncodeIsTheOperation :
    Instr.wellFormed (.send .broadcast (List.replicate 255 0xFF#8)) = true ∧
    Instr.frameWord (.send .broadcast (List.replicate 255 0xFF#8)) = none := by decide +kernel

theorem witness_EncodeOfDecodeIsTheRecord :
    decode (bytes [0x04, 0x80, 0x08]) = .ok (.cfgReserve 0x80#8, [0x08#8]) := by decide

theorem witness_FrameWordsRoundTrip :
    Instr.wellFormed (.wChecksum 0xFFFE#16) = true ∧ Instr.frameWord (.wChecksum 0xFFFE#16) = some (.checksum, 0xFFFE#16) ∧
    decodeFrameWord .terminator 0xFFFF#16 = some .wTerminator := by decide

/-- The operation-byte clause, at the ends of the reserved ranges. -/
theorem witness_ReservedEncodingsAreRefused :
    (offered .producer [0x07]).pending = .record .producer (0x07#8 :: []) :: [] ∧
    ∀ op ∈ bytes [0x07, 0x0B, 0x0F, 0x16, 0x17, 0x18, 0x1F, 0x20, 0xFF], reservedByte op := by decide

/-- No operation's byte is reserved. -/
theorem witness_ReservedEncodingsAreRefused_others :
    ∀ op ∈ bytes [0x00, 0x06, 0x08, 0x0A, 0x10, 0x15], ¬ reservedByte op := by decide

/-- The operand clauses: selector, register, a record cut short. -/
theorem witness_ReservedEncodingsAreRefused_operands :
    bytes [0x05, 0x02, 0x00] = 0x05#8 :: 0x02#8 :: bytes [0x00] ∧ 2 ≤ (0x02#8).toNat ∧ 2 ≤ (0xFF#8).toNat ∧
    bytes [0x06, 0x08] = 0x06#8 :: 0x08#8 :: [] ∧ 8 ≤ (0x08#8).toNat ∧ 8 ≤ (0xFF#8).toNat ∧
    Instr.wellFormed (.cfgSelf 0x3234#16) = true ∧ Instr.frameWord (.cfgSelf 0x3234#16) = none ∧
    [0x34#8] ≠ [] ∧ encode (.cfgSelf 0x3234#16) = bytes [0x01, 0x32] ++ [0x34#8] := by decide

/-- The empty record, and an unknown selector whose record is also cut short. -/
theorem test_refusal_corners :
    refusalOfStep (offered .producer []) = some .truncatedRecord ∧
    refusalOfStep (offered .producer [0x05, 0x02]) = some (.reservedSelector 2#8) ∧
    refusalOfStep (offered .transport [0x05, 0x00, 0x02, 0xAA]) = some .truncatedRecord := by decide

theorem witness_AgentsIssueOnlyTheirClass :
    (offered .transport [0x08]).pending = .record .transport (0x08#8 :: []) :: [] ∧
    decode [0x08#8] = .ok (.evTxComplete, []) ∧ ¬ reservedByte 0x08#8 ∧
    ((0x08#8).extractLsb' 3 2).toNat = classOf .transport ∧
    ((0x08#8).extractLsb' 3 2).toNat ≠ classOf .producer ∧
    ((0x10#8).extractLsb' 3 2).toNat = classOf .direct := by decide

theorem witness_StepRunsTheDecodedInput :
    (offered .producer [0x04, 0x80]).pending = .record .producer [0x04#8, 0x80#8] :: [] ∧
    decode [0x04#8, 0x80#8] = .ok (.cfgReserve 0x80#8, []) ∧ mayIssue .producer (.cfgReserve 0x80#8) = true ∧
    decodeFrameWord .terminator 0xFFFF#16 = some .wTerminator ∧ node.pending = [] := by decide

/-- For each clause an operation that changes its element. -/
theorem witness_EveryElementHasItsWritersOnly :
    (after (.cfgSelf 0#16) node).map State.selfAddr = some 0#16 ∧ node.selfAddr ≠ 0#16 ∧
    (after (.cfgPeer 0#16) node).map State.peerAddr = some 0#16 ∧ node.peerAddr ≠ 0#16 ∧
    (after (.cfgBcast 0#16) node).map State.bcastAddr = some 0#16 ∧ node.bcastAddr ≠ 0#16 ∧
    (after (.cfgReserve 1#8) node).map State.reserve = some 1#8 ∧ node.reserve ≠ 1#8 ∧
    (after (.send .peer []) node).map State.busy = some true ∧ node.busy ≠ true ∧
    (after .evTxComplete busyNode).map State.busy = some false ∧ busyNode.busy ≠ false ∧
    (after .evRxOverrun { node with rxState := .pending }).map State.rxState = some .idle ∧
    (after .evTxComplete busyNode).map State.sent = some 3 ∧ busyNode.sent ≠ 3 := by decide

/-- The same for the receive counters and the buffers (V-SES-3, V-SES-11, V-SES-12). -/
theorem witness_EveryElementHasItsWritersOnly_buffers :
    (after (.send .peer []) node).map (fun t => decide (t.txsLen ≠ node.txsLen)) = some true ∧
    (after (.evFrameBoundary goodImage) node).map (fun t => decide (t.received ≠ node.received)) = some true ∧
    (after (.evFrameBoundary goodImage) node).map (fun t => decide (t.rxuBits ≠ node.rxuBits)) = some true ∧
    (after (.evFrameBoundary (image 0xFF [])) node).map (fun t => decide (t.missed ≠ node.missed)) = some true := by
  decide +kernel

/-- The same for the working registers: one operation that changes each (V-CRC-2, V-STF-5, V-UNS-4). -/
theorem witness_EveryElementHasItsWritersOnly_workingRegisters :
    (after (.crc16Update 0x01#8 0x0000#16) node).map (fun t => decide (t.crc ≠ node.crc)) = some true ∧
    (after (.stuff (words [0x07C0, 0xFFFF])) node).map (fun t => decide (t.stuffer ≠ node.stuffer)) = some true ∧
    (after (.unstuff (bytes [0xFC, 0x0F, 0xFF])) node).map (fun t => decide (t.unstuffer ≠ node.unstuffer)) =
      some true := by decide +kernel

theorem witness_StateMachineTransitions :
    (∃ t, exec (.send .peer []) node = .next t) ∧ (∃ t, exec .evTxComplete busyNode = .next t) ∧
    (∃ t, exec .reset busyNode = .next t) ∧ (∃ t, exec (.evFrameBoundary goodImage) node = .next t) ∧
    (∃ t, exec .evRxOverrun node = .next t) ∧ (∃ t, exec (.rd .status) node = .next t) :=
  ⟨goesOn_spec (by decide), goesOn_spec (by decide), goesOn_spec (by decide), goesOn_spec (by decide), goesOn_spec (by decide), goesOn_spec (by decide)⟩

/-- A run with a completion that the transport owes. -/
theorem witness_CountersAccountForTheRun :
    (∀ i ∈ [Instr.evTxComplete, .evRxOverrun], i ≠ .reset) ∧ transportHonours [.evTxComplete, .evRxOverrun] busyNode ∧
    ∃ t, execAll [.evTxComplete, .evRxOverrun] busyNode = .next t :=
  ⟨by decide, ⟨fun _ => rfl, fun _ _ => ⟨fun h => (by cases h), fun _ _ => trivial⟩⟩, goesOn_spec (by decide)⟩

theorem witness_FrameInFlightIsUntouched :
    busyNode.busy = true ∧
    (∀ i ∈ [Instr.send .peer [0xAA#8], .evRxOverrun], i ≠ .reset ∧ i ≠ .evTxComplete) ∧
    ∃ t, execAll [.send .peer [0xAA#8], .evRxOverrun] busyNode = .next t :=
  ⟨rfl, by decide, goesOn_spec (by decide)⟩

/-- A node with a completion pending meets the invariant, and its step answers a next state. -/
theorem witness_EveryStepKeepsTheInvariant :
    (offered .transport [0x08]).Inv ∧ ∃ t, step (offered .transport [0x08]) = .next t :=
  ⟨by constructor <;> simp [offered, node, State.reset, Stuffer.initial, Unstuffer.initial, Memory.wf], goesOn_spec (by decide)⟩

end Sys2Proof.Tests
end

section
/-! PROOFS. The statements of spec/00_scope.md: what frame words mean as operations, and what one step
runs. -/

namespace Sys2Proof.Machine

/-! The meanings of the five frame-word rows (rules R9, R55). -/

theorem exec_wAddress (w : Word) (s : State) :
    exec (.wAddress w) s = .refused (.frameWordIsNoOperation .address) := rfl

theorem exec_wHeader (m : BitVec 1) (r : BitVec 7) (len : Byte) (s : State) :
    exec (.wHeader m r len) s = .refused (.frameWordIsNoOperation .header) := rfl

theorem exec_wPayload (h l : Byte) (s : State) :
    exec (.wPayload h l) s = .refused (.frameWordIsNoOperation .payload) := rfl

theorem exec_wChecksum (w : Word) (s : State) :
    exec (.wChecksum w) s = .refused (.frameWordIsNoOperation .checksum) := rfl

theorem exec_wTerminator (s : State) :
    exec .wTerminator s = .refused (.frameWordIsNoOperation .terminator) := rfl

/-! What a fetch takes from the head of the pending inputs. -/

theorem fetch_of_pending_nil {s : State} (hp : s.pending = []) : fetch s = .idle := by
  simp [fetch, hp]

/-- A record that decodes runs if its agent may issue it; the bytes behind it stay pending. -/
theorem fetch_of_pending_record {s : State} {a : Agent} {bs tail : List Byte} {i : Instr}
    {rest : List Input} (hp : s.pending = .record a bs :: rest) (hd : decode bs = .ok (i, tail))
    (ha : mayIssue a i = true) : fetch s = .run i { s with pending := pendingAfter a tail rest } := by
  simp [fetch, hp, hd, ha]

/-- A bare word is read by its place in a frame (log 9). -/
theorem fetch_of_pending_frameWord {s : State} {role : FrameRole} {w : Word} {i : Instr}
    {rest : List Input} (hp : s.pending = .frameWord role w :: rest)
    (hd : decodeFrameWord role w = some i) : fetch s = .run i { s with pending := rest } := by
  simp [fetch, hp, hd]

/-! What a step does with what was fetched. -/

theorem step_of_fetch_idle {s : State} (h : fetch s = .idle) : step s = .next s := by
  simp [step, h]

theorem step_of_fetch_run {s t : State} {i : Instr} (h : fetch s = .run i t) : step s = exec i t := by
  simp [step, h]

/-- Settles O46: each of the five rows is refused with its own place, whatever its operands. -/
theorem frameWordsAreNoOperations : Obligations.FrameWordsAreNoOperations :=
  fun s w m r h l => ⟨exec_wAddress w s, exec_wHeader m r l s, exec_wPayload h l s, exec_wChecksum w s,
    exec_wTerminator s⟩

/-- Settles O48, by what stands at the head of the pending inputs: a record, a frame word, nothing. -/
theorem stepRunsTheDecodedInput : Obligations.StepRunsTheDecodedInput := by
  intro s rest
  refine ⟨?record, ?frameWord, ?nothing⟩
  case record =>
    intro a bs tail i hp hd ha
    exact step_of_fetch_run (fetch_of_pending_record hp hd ha)
  case frameWord =>
    intro role w i hp hd
    exact step_of_fetch_run (fetch_of_pending_frameWord hp hd)
  case nothing =>
    intro hp
    exact step_of_fetch_idle (fetch_of_pending_nil hp)

end Sys2Proof.Machine
end

section
/-! PROOFS. What one operation can do, said once: the answers of the sixteen operations, and which
elements the two composite ones leave unchanged. -/

namespace Sys2Proof.Machine

/-- What `EV_FRAME_BOUNDARY` does to the state, seen from outside its handler. -/
def State.receiveImage (s : State) (img : List Byte) : State :=
  (((((s.storeImage img).unstuffIntoRxu).judge).countVerdict).leaveReceive).respond .nothing

/-! `RX_STATE` is read by nothing inside the handler. -/

theorem State.rxsBytes_enterReceive (s : State) : s.enterReceive.rxsBytes = s.rxsBytes := rfl

theorem State.rxuBytes_enterReceive (s : State) : s.enterReceive.rxuBytes = s.rxuBytes := rfl

theorem State.storeImage_enterReceive (s : State) (img : List Byte) :
    s.enterReceive.storeImage img = (s.storeImage img).enterReceive := rfl

theorem State.unstuffIntoRxu_enterReceive (s : State) :
    s.enterReceive.unstuffIntoRxu = s.unstuffIntoRxu.enterReceive := by
  rw [State.unstuffIntoRxu, State.rxsBytes_enterReceive]
  dsimp only [State.unstuffIntoRxu, State.enterReceive]

theorem State.judge_enterReceive (s : State) : s.enterReceive.judge = s.judge.enterReceive := by
  rw [State.judge, State.rxuBytes_enterReceive]
  dsimp only [State.judge, State.enterReceive]

theorem State.countVerdict_enterReceive (s : State) :
    s.enterReceive.countVerdict = s.countVerdict.enterReceive := by
  unfold State.countVerdict
  rw [State.enterReceive_rxVerdict]
  split <;> rfl

theorem State.leaveReceive_enterReceive (s : State) : s.enterReceive.leaveReceive = s.leaveReceive := rfl

/-- The receive state is Idle again when the handler returns (45_session_ops.md rule R142). -/
theorem execEvFrameBoundary_eq (img : List Byte) (s : State) :
    execEvFrameBoundary img s = .next (s.receiveImage img) := by
  rw [execEvFrameBoundary, State.storeImage_enterReceive, State.unstuffIntoRxu_enterReceive,
    State.judge_enterReceive, State.countVerdict_enterReceive, State.leaveReceive_enterReceive,
    ← State.receiveImage]

theorem execEvRxOverrun_eq (s : State) : execEvRxOverrun s = .next (s.leaveReceive.respond .nothing) := by
  rw [execEvRxOverrun, State.countOverrun_eq, State.leaveReceive_enterReceive]

/-- The answers of `exec`: instruction `i` run in `s` goes on in `t`. Reserved rows and frame words
answer no next state, `SEND` and `ENCODE` of a bad length neither. -/
inductive Effect (s : State) : Instr → State → Prop where
  | reset : Effect s .reset
      { State.reset with pending := s.pending, trace := s.trace, epoch := s.epoch + 1 }
  | cfgSelf (v : Word) : Effect s (.cfgSelf v) (({ s with selfAddr := v } : State).respond .nothing)
  | cfgPeer (v : Word) : Effect s (.cfgPeer v) (({ s with peerAddr := v } : State).respond .nothing)
  | cfgBcast (v : Word) : Effect s (.cfgBcast v) (({ s with bcastAddr := v } : State).respond .nothing)
  | cfgReserve (v : Byte) : Effect s (.cfgReserve v) (({ s with reserve := v } : State).respond .nothing)
  | sendBusy (sel : Dest) (p : List Byte) : s.busy = true → Effect s (.send sel p) (s.respond .busy)
  | sendOk (sel : Dest) (p : List Byte) : s.busy = false → payloadLegal p = true →
      Effect s (.send sel p) (s.sendFrame sel p)
  | rd (reg : RegName) : Effect s (.rd reg) (s.respond (.u32 (s.readRegister reg)))
  | evTxComplete :
      Effect s .evTxComplete ((((s.emit .txCursorReset).countSent).clearGate).respond .nothing)
  | evFrameBoundary (img : List Byte) :
      Effect s (.evFrameBoundary img) (s.receiveImage img)
  | evRxOverrun : Effect s .evRxOverrun (s.leaveReceive.respond .nothing)
  | crc16Update (byte : Byte) (reg : Word) : Effect s (.crc16Update byte reg)
      (({ s with crc := CrcEngine.feed { s.crc with reg } byte } : State).respond
        (.u16 (CrcEngine.feed { s.crc with reg } byte).reg))
  | crc16 (bs : List Byte) : Effect s (.crc16 bs)
      (({ s with crc := s.crc.run bs } : State).respond (.u16 (s.crc.run bs).reg))
  | encode (dest : Word) (reserve : Byte) (p : List Byte) : payloadLegal p = true →
      Effect s (.encode dest reserve p)
        (({ s with crc := encodeEngine s.crc dest reserve p } : State).respond
          (.frame (encodeFrame dest reserve p)))
  | stuff (ws : List Word) : Effect s (.stuff ws)
      (({ s with stuffer := stufferAfter (stuffOperand ws) } : State).respond
        (.stuffed (stuffWords (stuffOperand ws)) (stuffWords (stuffOperand ws)).length))
  | unstuff (bs : List Byte) : Effect s (.unstuff bs)
      (({ s with unstuffer := unstufferAfter (unstuffOperand bs) } : State).respond
        (.unstuffed (unstuffBytes (unstuffOperand bs)) (unstuffCount (unstuffOperand bs))))
  | validate (self bc : Word) (bs : List Byte) : Effect s (.validate self bc bs)
      (({ s with crc := validateEngine s.crc self bc (validateOperand bs) } : State).respond
        (.verdict (validateFrame self bc (validateOperand bs))))

/-- An instruction that answers a next state had its effect. -/
theorem exec_next {i : Instr} {s t : State} (h : exec i s = .next t) : Effect s i t := by
  cases i with
  | reset => cases h; exact .reset
  | cfgSelf v => cases h; exact .cfgSelf v
  | cfgPeer v => cases h; exact .cfgPeer v
  | cfgBcast v => cases h; exact .cfgBcast v
  | cfgReserve v => cases h; exact .cfgReserve v
  | send sel p =>
    obtain ⟨hb, rfl⟩ | ⟨hb, hp, rfl⟩ := execSend_next h
    · exact .sendBusy sel p hb
    · exact .sendOk sel p hb hp
  | rd reg => cases h; exact .rd reg
  | evTxComplete => cases h; exact .evTxComplete
  | evFrameBoundary img =>
    obtain rfl := Host.Outcome.next.inj ((execEvFrameBoundary_eq img s).symm.trans h)
    exact .evFrameBoundary img
  | evRxOverrun =>
    obtain rfl := Host.Outcome.next.inj ((execEvRxOverrun_eq s).symm.trans h)
    exact .evRxOverrun
  | crc16Update byte reg => cases h; exact .crc16Update byte reg
  | crc16 bs => cases h; exact .crc16 bs
  | encode dest reserve p =>
    obtain ⟨hp, rfl⟩ := execEncode_next h
    exact .encode dest reserve p hp
  | stuff ws => cases h; exact .stuff ws
  | unstuff bs => cases h; exact .unstuff bs
  | validate self bc bs => cases h; exact .validate self bc bs
  | reserved07 | reserved0B0F | reserved1617 | reservedClass11 | reservedHighBits
  | wAddress | wHeader | wPayload | wChecksum | wTerminator => cases h

end Sys2Proof.Machine
end

section
/-! PROOFS. The invariant: each update of State that an operation is made of keeps it. -/

namespace Sys2Proof.Machine

/-- Settles O53: empty buffers, lengths 0, working registers as a use begins with them. -/
theorem resetStateMeetsTheInvariant : Obligations.ResetStateMeetsTheInvariant := by
  obtain ⟨htxu, htxs, hrxs, hrxu⟩ := State.reset_wf
  exact {
    txuForm := htxu, txsForm := htxs, rxsForm := hrxs, rxuForm := hrxu
    txuSize := List.forall_mem_nil _, txsSize := List.forall_mem_nil _
    rxsSize := List.forall_mem_nil _, rxuSize := List.forall_mem_nil _
    txsLenBound := Nat.zero_le _, rxuBitsBound := Nat.zero_le _
    inFlight := nofun, rxIdle := rfl
    stufferRun := by decide, stufferCursors := by decide
    unstufferRun := by decide, unstufferCursors := by decide }

section

variable {s : State}

theorem State.Inv.respond (h : s.Inv) (r : Result) : (s.respond r).Inv := { h with }

theorem State.Inv.emit (h : s.Inv) (o : Output) : (s.emit o).Inv := { h with }

theorem State.Inv.countSent (h : s.Inv) : s.countSent.Inv := { h with }

theorem State.Inv.withCrc (h : s.Inv) (c : CrcEngine) : ({ s with crc := c } : State).Inv := { h with }

theorem State.Inv.judge (h : s.Inv) : s.judge.Inv := { h with }

theorem State.Inv.countVerdict (h : s.Inv) : s.countVerdict.Inv := by
  unfold State.countVerdict
  split
  · exact { h with }
  · exact { h with }

theorem State.Inv.leaveReceive (h : s.Inv) : s.leaveReceive.Inv := { h with rxIdle := rfl }

/-- A clear gate leaves no frame in flight to speak of. -/
theorem State.Inv.clearGate (h : s.Inv) : s.clearGate.Inv := { h with inFlight := nofun }

/-- The gate may be set over a frame that ends with the terminator (20_memory.md rule R46). -/
theorem State.Inv.setGate (h : s.Inv)
    (hf : 0 < s.txsLen ∧ Buffer.lookup s.txs (s.txsLen - 1) = some 0xFFFF#16) : s.setGate.Inv :=
  { h with inFlight := fun _ => hf }

theorem State.Inv.withStuffer (h : s.Inv) (u : List Word) :
    ({ s with stuffer := stufferAfter u } : State).Inv :=
  { h with
    stufferRun := (stufferAfter_ranges u).1
    stufferCursors := (stufferAfter_ranges u).2 }

theorem State.Inv.withUnstuffer (h : s.Inv) (u : List Byte) :
    ({ s with unstuffer := unstufferAfter u } : State).Inv := by
  obtain ⟨hrun, hbyte, hbit, hout, -⟩ := unstufferAfter_ranges u
  exact { h with unstufferRun := hrun, unstufferCursors := ⟨hbyte, hbit, hout⟩ }

/-- A legal payload's frame fits `TXU` (10_state.md rule R25). -/
theorem State.Inv.encodeIntoTxu (h : s.Inv) (d : Word) {p : List Byte} (hp : payloadLegal p = true) :
    (s.encodeIntoTxu d p).Inv := by
  have hfit : 0 + (encodeFrame d s.reserve p).length ≤ 12 := by
    have := ((payloadLegal_iff p).1 hp).2
    rw [encodeFrame_length]; omega
  exact { h with
    txuForm := State.encodeIntoTxu_wf d p h.txuForm
    txuSize := Buffer.writeFrom_below h.txuSize hfit }

/-- What `SEND` leaves in `TXS` ends with the terminator. -/
theorem State.stuffIntoTxs_terminated (s : State) : 0 < s.stuffIntoTxs.txsLen ∧
    Buffer.lookup s.stuffIntoTxs.txs (s.stuffIntoTxs.txsLen - 1) = some 0xFFFF#16 := by
  obtain ⟨hpos, -⟩ := stuffWords_length s.txuWords
  rw [State.stuffIntoTxs_txsLen, State.stuffIntoTxs_txs, Buffer.lookup_writeFrom, if_pos (by omega)]
  exact ⟨hpos, stuffWords_terminator s.txuWords⟩

/-- A stuffed frame fits `TXS` (10_state.md rule R26). -/
theorem State.Inv.stuffIntoTxs (h : s.Inv) : s.stuffIntoTxs.Inv := by
  obtain ⟨-, hmax⟩ := stuffWords_length s.txuWords
  exact { h.withStuffer s.txuWords with
    txsForm := State.stuffIntoTxs_wf h.txsForm
    txsSize := Buffer.writeFrom_below h.txsSize (by omega)
    txsLenBound := by rw [State.stuffIntoTxs_txsLen]; omega
    inFlight := fun _ => s.stuffIntoTxs_terminated }

/-- An image is cut to the size of `RXS` (10_state.md rule R27). -/
theorem State.Inv.storeImage (h : s.Inv) (img : List Byte) : (s.storeImage img).Inv :=
  { h with
    rxsForm := State.storeImage_wf img h.rxsForm
    rxsSize := Buffer.writeFrom_below h.rxsSize (by simp) }

theorem State.Inv.withRxu (h : s.Inv) {b : Buffer Byte} {n : Nat} (hform : Memory.wf b)
    (hsize : indicesBelow 36 b) (hn : n ≤ 288) : ({ s with rxu := b, rxuBits := n } : State).Inv :=
  { h with rxuForm := hform, rxuSize := hsize, rxuBitsBound := hn }

/-- What `UNSTUFF` returns fits `RXU` (10_state.md rule R28). -/
theorem State.Inv.unstuffIntoRxu (h : s.Inv) : s.unstuffIntoRxu.Inv := by
  obtain ⟨-, -, -, -, hbits⟩ := unstufferAfter_ranges s.rxsBytes
  have hfit : 0 + (unstuffBytes s.rxsBytes).length ≤ 36 := by rw [unstuffBytes_length]
  unfold State.unstuffIntoRxu
  exact (h.withUnstuffer s.rxsBytes).withRxu (Buffer.writeFrom_wf h.rxuForm)
    (Buffer.writeFrom_below h.rxuSize hfit) hbits

theorem State.txuWords_setGate (s : State) : s.setGate.txuWords = s.txuWords := rfl

theorem State.encodeIntoTxu_setGate (s : State) (d : Word) (p : List Byte) :
    s.setGate.encodeIntoTxu d p = (s.encodeIntoTxu d p).setGate := by
  dsimp only [State.encodeIntoTxu, State.setGate]

theorem State.stuffIntoTxs_setGate (s : State) : s.setGate.stuffIntoTxs = s.stuffIntoTxs.setGate := by
  rw [State.stuffIntoTxs, State.txuWords_setGate]
  dsimp only [State.stuffIntoTxs, State.setGate]

/-- `SEND` sets the gate first; nothing after it reads the gate, so it may be taken last, when the
frame it guards is in `TXS`. -/
theorem State.sendFrame_eq (s : State) (sel : Dest) (p : List Byte) : s.sendFrame sel p =
    (((s.encodeIntoTxu (s.destination sel) p).stuffIntoTxs).setGate.beginTransmit).respond .ok := by
  rw [State.sendFrame, State.encodeIntoTxu_setGate, State.stuffIntoTxs_setGate]

theorem State.Inv.sendFrame (h : s.Inv) (sel : Dest) {p : List Byte} (hp : payloadLegal p = true) :
    (s.sendFrame sel p).Inv := by
  rw [State.sendFrame_eq]
  exact (((h.encodeIntoTxu _ hp).stuffIntoTxs.setGate (State.stuffIntoTxs_terminated _)).emit _).respond _

theorem State.Inv.receiveImage (h : s.Inv) (img : List Byte) : (s.receiveImage img).Inv :=
  (h.storeImage img).unstuffIntoRxu.judge.countVerdict.leaveReceive.respond _

/-- Every operation keeps the invariant. -/
theorem exec_keeps_inv {i : Instr} {t : State} (h : s.Inv) (he : exec i s = .next t) : t.Inv := by
  cases exec_next he with
  | reset => exact { resetStateMeetsTheInvariant with }
  | cfgSelf | cfgPeer | cfgBcast | cfgReserve | sendBusy | rd => exact { h with }
  | sendOk sel p _ hp => exact h.sendFrame sel hp
  | evTxComplete => exact ((h.emit _).countSent.clearGate).respond _
  | evFrameBoundary img => exact h.receiveImage img
  | evRxOverrun => exact h.leaveReceive.respond _
  | crc16Update | crc16 | encode | validate => exact (h.withCrc _).respond _
  | stuff => exact (h.withStuffer _).respond _
  | unstuff => exact (h.withUnstuffer _).respond _

end

/-- Settles O54: taking the input touches nothing the invariant reads, and the operation keeps it. -/
theorem everyStepKeepsTheInvariant : Obligations.EveryStepKeepsTheInvariant := by
  intro s t h hstep
  obtain ⟨-, rfl⟩ | ⟨i, s', hfetch, hexec⟩ := step_next_cases hstep
  · exact h
  · have hs' : s'.Inv := fetch_run_state hfetch ▸ h.pending s'.pending
    exact exec_keeps_inv hs' hexec

end Sys2Proof.Machine
end

section
/-! PROOFS. Frames and counters of the operations: what `SEND` and `EV_FRAME_BOUNDARY` leave
unchanged, and who writes what. -/

namespace Sys2Proof.Machine

open Sys2Proof.Claims (sentFrame)

/-! What a successful `SEND` does not write. -/

@[simp] theorem State.sendFrame_selfAddr (s : State) (sel : Dest) (p : List Byte) :
    (s.sendFrame sel p).selfAddr = s.selfAddr := by simp [State.sendFrame]
@[simp] theorem State.sendFrame_peerAddr (s : State) (sel : Dest) (p : List Byte) :
    (s.sendFrame sel p).peerAddr = s.peerAddr := by simp [State.sendFrame]
@[simp] theorem State.sendFrame_bcastAddr (s : State) (sel : Dest) (p : List Byte) :
    (s.sendFrame sel p).bcastAddr = s.bcastAddr := by simp [State.sendFrame]
@[simp] theorem State.sendFrame_reserve (s : State) (sel : Dest) (p : List Byte) :
    (s.sendFrame sel p).reserve = s.reserve := by simp [State.sendFrame]
@[simp] theorem State.sendFrame_rxState (s : State) (sel : Dest) (p : List Byte) :
    (s.sendFrame sel p).rxState = s.rxState := by simp [State.sendFrame]
@[simp] theorem State.sendFrame_sent (s : State) (sel : Dest) (p : List Byte) :
    (s.sendFrame sel p).sent = s.sent := by simp [State.sendFrame]
@[simp] theorem State.sendFrame_received (s : State) (sel : Dest) (p : List Byte) :
    (s.sendFrame sel p).received = s.received := by simp [State.sendFrame]
@[simp] theorem State.sendFrame_missed (s : State) (sel : Dest) (p : List Byte) :
    (s.sendFrame sel p).missed = s.missed := by simp [State.sendFrame]
@[simp] theorem State.sendFrame_rxs (s : State) (sel : Dest) (p : List Byte) :
    (s.sendFrame sel p).rxs = s.rxs := by simp [State.sendFrame]
@[simp] theorem State.sendFrame_rxu (s : State) (sel : Dest) (p : List Byte) :
    (s.sendFrame sel p).rxu = s.rxu := by simp [State.sendFrame]
@[simp] theorem State.sendFrame_rxuBits (s : State) (sel : Dest) (p : List Byte) :
    (s.sendFrame sel p).rxuBits = s.rxuBits := by simp [State.sendFrame]
@[simp] theorem State.sendFrame_unstuffer (s : State) (sel : Dest) (p : List Byte) :
    (s.sendFrame sel p).unstuffer = s.unstuffer := by simp [State.sendFrame]
@[simp] theorem State.sendFrame_pending (s : State) (sel : Dest) (p : List Byte) :
    (s.sendFrame sel p).pending = s.pending := by simp [State.sendFrame]
@[simp] theorem State.sendFrame_rxVerdict (s : State) (sel : Dest) (p : List Byte) :
    (s.sendFrame sel p).rxVerdict = s.rxVerdict := by simp [State.sendFrame]
@[simp] theorem State.sendFrame_epoch (s : State) (sel : Dest) (p : List Byte) :
    (s.sendFrame sel p).epoch = s.epoch := by simp [State.sendFrame]

/-! What a frame boundary does not write, and the buffers it does. -/

@[simp] theorem State.receiveImage_selfAddr (s : State) (img : List Byte) :
    (s.receiveImage img).selfAddr = s.selfAddr := by simp [State.receiveImage]
@[simp] theorem State.receiveImage_peerAddr (s : State) (img : List Byte) :
    (s.receiveImage img).peerAddr = s.peerAddr := by simp [State.receiveImage]
@[simp] theorem State.receiveImage_bcastAddr (s : State) (img : List Byte) :
    (s.receiveImage img).bcastAddr = s.bcastAddr := by simp [State.receiveImage]
@[simp] theorem State.receiveImage_reserve (s : State) (img : List Byte) :
    (s.receiveImage img).reserve = s.reserve := by simp [State.receiveImage]
@[simp] theorem State.receiveImage_busy (s : State) (img : List Byte) :
    (s.receiveImage img).busy = s.busy := by simp [State.receiveImage]
@[simp] theorem State.receiveImage_sent (s : State) (img : List Byte) :
    (s.receiveImage img).sent = s.sent := by simp [State.receiveImage]
@[simp] theorem State.receiveImage_txu (s : State) (img : List Byte) :
    (s.receiveImage img).txu = s.txu := by simp [State.receiveImage]
@[simp] theorem State.receiveImage_txs (s : State) (img : List Byte) :
    (s.receiveImage img).txs = s.txs := by simp [State.receiveImage]
@[simp] theorem State.receiveImage_txsLen (s : State) (img : List Byte) :
    (s.receiveImage img).txsLen = s.txsLen := by simp [State.receiveImage]
@[simp] theorem State.receiveImage_stuffer (s : State) (img : List Byte) :
    (s.receiveImage img).stuffer = s.stuffer := by simp [State.receiveImage]
@[simp] theorem State.receiveImage_pending (s : State) (img : List Byte) :
    (s.receiveImage img).pending = s.pending := by simp [State.receiveImage]
@[simp] theorem State.receiveImage_epoch (s : State) (img : List Byte) :
    (s.receiveImage img).epoch = s.epoch := by simp [State.receiveImage]
@[simp] theorem State.receiveImage_rxs (s : State) (img : List Byte) :
    (s.receiveImage img).rxs = (s.storeImage img).rxs := by simp [State.receiveImage]
@[simp] theorem State.receiveImage_rxu (s : State) (img : List Byte) :
    (s.receiveImage img).rxu = (s.storeImage img).unstuffIntoRxu.rxu := by simp [State.receiveImage]

/-! A buffer reads the same while its list and the number of resets stay. -/

theorem State.txuRead_congr {s t : State} (hb : t.txu = s.txu) (he : t.epoch = s.epoch) (k : Nat) :
    t.txuRead k = s.txuRead k := by rw [State.txuRead, State.txuRead, hb, he]

theorem State.txsRead_congr {s t : State} (hb : t.txs = s.txs) (he : t.epoch = s.epoch) (k : Nat) :
    t.txsRead k = s.txsRead k := by rw [State.txsRead, State.txsRead, hb, he]

theorem State.rxsRead_congr {s t : State} (hb : t.rxs = s.rxs) (he : t.epoch = s.epoch) (k : Nat) :
    t.rxsRead k = s.rxsRead k := by rw [State.rxsRead, State.rxsRead, hb, he]

theorem State.rxuRead_congr {s t : State} (hb : t.rxu = s.rxu) (he : t.epoch = s.epoch) (k : Nat) :
    t.rxuRead k = s.rxuRead k := by rw [State.rxuRead, State.rxuRead, hb, he]

/-! Reads at indices that no write reaches. -/

/-- The frame a `SEND` builds, in the model's words. -/
theorem encodeFrame_destination (s : State) (sel : Dest) (p : List Byte) :
    encodeFrame (s.destination sel) s.reserve p = sentFrame s sel p := by
  cases sel <;> rfl

theorem State.txuRead_sendFrame {s : State} {sel : Dest} {p : List Byte} {k : Nat}
    (hk : (sentFrame s sel p).length ≤ k) : (s.sendFrame sel p).txuRead k = s.txuRead k := by
  rw [← encodeFrame_destination] at hk
  exact (State.txuRead_encodeIntoTxu s (s.destination sel) p k).trans (if_neg (by omega))

theorem State.txsRead_sendFrame {s : State} {sel : Dest} {p : List Byte} {k : Nat}
    (hk : (s.sendFrame sel p).txsLen ≤ k) : (s.sendFrame sel p).txsRead k = s.txsRead k :=
  (State.txsRead_stuffIntoTxs (s.encodeIntoTxu (s.destination sel) p) k).trans
    (if_neg (Nat.not_lt.2 hk))

/-- The image stays within the first 36 bytes of `RXS`. -/
theorem State.rxsRead_receiveImage_of_le (s : State) (img : List Byte) {k : Nat} (hk : 36 ≤ k) :
    (s.receiveImage img).rxsRead k = s.rxsRead k := by
  have hlen : (img.take 36).length ≤ 36 := List.length_take_le ..
  simp only [State.rxsRead, State.receiveImage_rxs, State.receiveImage_epoch, State.storeImage_rxs,
    Buffer.lookup_writeFrom, Config.maxStuffedPacketLenBytes_eq]
  rw [if_neg (by omega)]

/-- What `UNSTUFF` returns stays within the first 36 bytes of `RXU`. -/
theorem State.rxuRead_receiveImage_of_le (s : State) (img : List Byte) {k : Nat} (hk : 36 ≤ k) :
    (s.receiveImage img).rxuRead k = s.rxuRead k := by
  simp only [State.rxuRead, State.receiveImage_rxu, State.receiveImage_epoch,
    State.unstuffIntoRxu_rxu, State.storeImage_rxu, Buffer.lookup_writeFrom, unstuffBytes_length]
  rw [if_neg (by omega)]

/-- Settles O8: `Busy` changes the returned result alone; `Ok` by what the frame and its stuffed form
leave of the two transmit buffers. -/
theorem sendLeavesTheRestUnchanged : Obligations.SendLeavesTheRestUnchanged := by
  intro s t sel p h
  obtain ⟨-, rfl⟩ | ⟨-, -, rfl⟩ := execSend_next h
  · exact ⟨rfl, rfl, rfl, rfl, rfl, rfl, rfl, rfl, rfl, rfl, rfl, rfl,
      fun _ => rfl, fun _ => rfl, fun _ _ => rfl, fun _ _ => rfl⟩
  · have hepoch := s.sendFrame_epoch sel p
    exact ⟨s.sendFrame_selfAddr .., s.sendFrame_peerAddr .., s.sendFrame_bcastAddr ..,
      s.sendFrame_reserve .., s.sendFrame_rxState .., s.sendFrame_sent .., s.sendFrame_received ..,
      s.sendFrame_missed .., s.sendFrame_rxuBits .., s.sendFrame_unstuffer .., s.sendFrame_pending ..,
      s.sendFrame_rxVerdict .., State.rxsRead_congr (s.sendFrame_rxs sel p) hepoch,
      State.rxuRead_congr (s.sendFrame_rxu sel p) hepoch,
      fun _ => State.txuRead_sendFrame, fun _ => State.txsRead_sendFrame⟩

/-- Settles O13, by what the handler leaves of each element. -/
theorem frameBoundaryLeavesTheTransmitSideUnchanged :
    Obligations.FrameBoundaryLeavesTheTransmitSideUnchanged := by
  intro s t img h
  cases exec_next h with
  | evFrameBoundary =>
    have hepoch := s.receiveImage_epoch img
    exact ⟨s.receiveImage_selfAddr img, s.receiveImage_peerAddr img, s.receiveImage_bcastAddr img,
      s.receiveImage_reserve img, s.receiveImage_busy img, s.receiveImage_sent img,
      s.receiveImage_txsLen img, s.receiveImage_stuffer img, s.receiveImage_pending img,
      State.txuRead_congr (s.receiveImage_txu img) hepoch,
      State.txsRead_congr (s.receiveImage_txs img) hepoch,
      fun _ => s.rxsRead_receiveImage_of_le img, fun _ => s.rxuRead_receiveImage_of_le img⟩

/-! Counters. -/

/-- A counter is taken modulo `2^COUNTER_BITS` (10_state.md rule R24). -/
theorem countUp_toNat (c : Counter) : (countUp c).toNat = (c.toNat + 1) % 2 ^ 32 :=
  BitVec.toNat_add c 1

/-- A frame boundary moves exactly one of the two receive counters. -/
theorem State.receiveImage_counters (s : State) (img : List Byte) :
    ((s.receiveImage img).received = countUp s.received ∧ (s.receiveImage img).missed = s.missed) ∨
    ((s.receiveImage img).missed = countUp s.missed ∧ (s.receiveImage img).received = s.received) := by
  by_cases hv : validateFrame s.selfAddr s.bcastAddr (s.storeImage img).unstuffIntoRxu.rxuBytes = .accept
  · left; simp [State.receiveImage, hv]
  · right; simp [State.receiveImage, hv]

/-- Settles O11: each of the two events counts up, and counting up is modulo `2^32`. -/
theorem countersWrapToZero : Obligations.CountersWrapToZero := by
  refine fun s t img => ⟨fun h => ?complete, fun h => ?boundary⟩
  case complete =>
    cases exec_next h with
    | evTxComplete => exact countUp_toNat s.sent
  case boundary =>
    cases exec_next h with
    | evFrameBoundary =>
      obtain ⟨hup, hkeep⟩ | ⟨hup, hkeep⟩ := s.receiveImage_counters img
      · exact .inl ⟨(congrArg BitVec.toNat hup).trans (countUp_toNat _), hkeep⟩
      · exact .inr ⟨(congrArg BitVec.toNat hup).trans (countUp_toNat _), hkeep⟩

/-- Settles O49, by the effect of each operation: an element the effect writes has the operation among
its writers, and any other element is as it was. -/
theorem everyElementHasItsWritersOnly : Obligations.EveryElementHasItsWritersOnly := by
  intro i s t h hreset
  cases exec_next h with
  | reset => exact absurd rfl hreset
  | cfgSelf | cfgPeer | cfgBcast | cfgReserve => simp
  | sendBusy | sendOk | rd => simp
  | evTxComplete | evFrameBoundary | evRxOverrun => simp
  | crc16Update | crc16 | encode | validate | stuff | unstuff => simp

end Sys2Proof.Machine
end

section
/-! PROOFS. Operation records (spec 30_encoding.md rules R67 to R73): what each operation byte selects,
and that decoding undoes encoding. -/

namespace Sys2Proof

/-! The classes of operation bytes (rules R67, R68). -/

theorem decode_command {n : Nat} (hn : n < 8) (bs : List Byte) :
    decode (BitVec.ofNat 8 n :: bs) = decodeCommand n bs := by
  interval_cases n <;> rfl

theorem decode_event {n : Nat} (hn : n < 8) (bs : List Byte) :
    decode (BitVec.ofNat 8 (8 + n) :: bs) = decodeEvent n bs := by
  interval_cases n <;> rfl

/-- Indices 3 to 7 of class `01` (rule R73). -/
theorem decodeEvent_reserved (n : Nat) (bs : List Byte) :
    decodeEvent (n + 3) bs = .ok (.reserved0B0F (BitVec.ofNat 3 (n + 3)), bs) := rfl

theorem decode_micro {n : Nat} (hn : n < 8) (bs : List Byte) :
    decode (BitVec.ofNat 8 (16 + n) :: bs) = decodeMicro n bs := by
  interval_cases n <;> rfl

/-! The reserved operation bytes (rule R73). -/

theorem opByte_event (index : BitVec 3) : 0b00001#5 ++ index = BitVec.ofNat 8 (8 + index.toNat) := by
  revert index; decide

theorem opByte_class11 (index : BitVec 3) : 0b00011#5 ++ index = BitVec.ofNat 8 (24 + index.toNat) := by
  revert index; decide

theorem decode_reserved0B0F {index : BitVec 3} (h : 3 ≤ index.toNat) (bs : List Byte) :
    decode ((0b00001#5 ++ index) :: bs) = .ok (.reserved0B0F index, bs) := by
  obtain ⟨n, hn⟩ := Nat.exists_eq_add_of_le' h
  rw [opByte_event, decode_event index.isLt, hn, decodeEvent_reserved, ← hn, BitVec.ofNat_toNat,
    BitVec.setWidth_eq]

theorem decode_reserved1617 (low : BitVec 1) (bs : List Byte) :
    decode ((0b0001011#7 ++ low) :: bs) = .ok (.reserved1617 low, bs) := by
  obtain rfl | rfl : low = 0#1 ∨ low = 1#1 := by revert low; decide
  all_goals rfl

theorem decode_reservedClass11 (index : BitVec 3) (bs : List Byte) :
    decode ((0b00011#5 ++ index) :: bs) = .ok (.reservedClass11 index, bs) := by
  have h5 : (0b00011#5 ++ index).extractLsb' 5 3 = 0#3 := by revert index; decide
  have h3 : ((0b00011#5 ++ index).extractLsb' 3 2).toNat = 3 := by revert index; decide
  have h0 : (0b00011#5 ++ index).extractLsb' 0 3 = index := by revert index; decide
  simp [decode, decodeOp, h5, h3, h0, decodeBare]

theorem decode_reservedHighBits {op : Byte} (h : 0x20 ≤ op.toNat) (bs : List Byte) :
    decode (op :: bs) = .ok (.reservedHighBits op, bs) := by
  have hbits : op.extractLsb' 5 3 ≠ 0#3 := by
    intro h0
    have := congrArg BitVec.toNat h0
    simp [Nat.shiftRight_eq_div_pow] at this
    omega
  simp [decode, decodeOp, hbits, decodeBare]

/-! Operands that `encode` writes are read back. -/

@[simp] theorem decodeWordOperand_append (f : Word → Instr) (w : Word) (tail : List Byte) :
    decodeWordOperand f (wordBytes w ++ tail) = .ok (f w, tail) := by
  simp [wordBytes, decodeWordOperand]

/-- A list with one byte for each element. -/
theorem decodeCounted_bytes (f : List Byte → Instr) {p : List Byte} (hp : countFits p.length = true)
    (tail : List Byte) : decodeCounted 1 f (countByte p.length :: (p ++ tail)) = .ok (f p, tail) :=
  decodeCounted_append 1 p.length f p tail (by simpa using hp) (by omega)

theorem decode_send_number (sel : Dest) (bs : List Byte) :
    decode (0x05#8 :: sel.number :: bs) = decodeCounted 1 (.send sel) bs := by
  simp [decode_send, decodeSend, decodeSelector_number]

theorem decode_rd_number (reg : RegName) (bs : List Byte) :
    decode (0x06#8 :: reg.number :: bs) = .ok (.rd reg, bs) := by
  simp [decode_rd, decodeRd, decodeRegister_number, Except.map]

theorem decode_encode_record (dest : Word) (r : Byte) (bs : List Byte) :
    decode (0x12#8 :: (wordBytes dest ++ r :: bs)) = decodeCounted 1 (.encode dest r) bs := by
  simp [decode_encode, decodeEncode, wordBytes]

theorem decode_validate_record (self bc : Word) (bs : List Byte) :
    decode (0x15#8 :: (wordBytes self ++ wordBytes bc ++ bs)) = decodeCounted 1 (.validate self bc) bs := by
  simp [decode_validate, decodeValidate, wordBytes]

/-- Settles O40, row by row: the operation byte selects the operand decoder, which reads the operands
back. -/
theorem decodeOfEncodeIsTheOperation : Obligations.DecodeOfEncodeIsTheOperation := by
  intro i tail hw hf
  cases i with
  | reset => exact decode_reset tail
  | cfgSelf v => exact decodeWordOperand_append .cfgSelf v tail
  | cfgPeer v => exact decodeWordOperand_append .cfgPeer v tail
  | cfgBcast v => exact decodeWordOperand_append .cfgBcast v tail
  | cfgReserve v => exact decode_cfgReserve (v :: tail)
  | send sel p => exact (decode_send_number sel _).trans (decodeCounted_bytes _ hw tail)
  | rd reg => exact decode_rd_number reg tail
  | evTxComplete => exact decode_evTxComplete tail
  | evFrameBoundary img =>
    have h36 : img.length = 36 := by simpa [Instr.wellFormed] using hw
    have ht : takeBytes 36 (img ++ tail) = .ok (img, tail) := h36 ▸ takeBytes_append img tail
    simp [encode, decode_evFrameBoundary, decodeFrameBoundary, ht, Except.map]
  | evRxOverrun => exact decode_evRxOverrun tail
  | crc16Update byte reg => exact decodeWordOperand_append (.crc16Update byte) reg tail
  | crc16 bs => exact decodeCounted_bytes .crc16 hw tail
  | encode dest r p =>
    simpa [encode] using (decode_encode_record dest r _).trans (decodeCounted_bytes _ hw tail)
  | stuff ws =>
    have hc := decodeCounted_append 2 ws.length (fun p => .stuff (wordsOfBytes p)) (wordsToBytes ws) tail
      (by simpa [Instr.wellFormed] using hw) (wordsToBytes_length ws)
    simpa [encode, decode_stuff] using hc
  | unstuff bs => exact decodeCounted_bytes .unstuff hw tail
  | validate self bc bs =>
    simpa [encode] using (decode_validate_record self bc _).trans (decodeCounted_bytes _ hw tail)
  | reserved07 => exact decode_reserved07 tail
  | reserved0B0F index => exact decode_reserved0B0F (by simpa [Instr.wellFormed] using hw) tail
  | reserved1617 low => exact decode_reserved1617 low tail
  | reservedClass11 index => exact decode_reservedClass11 index tail
  | reservedHighBits op => exact decode_reservedHighBits (by simpa [Instr.wellFormed] using hw) tail
  | wAddress | wHeader | wPayload | wChecksum | wTerminator => cases hf

end Sys2Proof
end

section
/-! PROOFS. What the decoder can answer, said once: a record that was read, or the reason of rule R73
(spec 30_encoding.md) why there is none. -/

namespace Sys2Proof

/-- The bytes are the record of an operation or of a reserved row, operands in range. -/
structure IsRecord (i : Instr) (bs : List Byte) : Prop where
  wellFormed : i.wellFormed = true
  noFrameWord : i.frameWord = none
  bytes : encode i = bs

/-- The answers of `decode` to a byte string. -/
inductive Reading (bs : List Byte) : Decoded → Prop where
  | record {i : Instr} {front tail : List Byte} : IsRecord i front → front ++ tail = bs →
      Reading bs (.ok (i, tail))
  | cutShort : Reading bs (.error .truncated)
  | selector {sel : Byte} {rest : List Byte} : bs = 0x05#8 :: sel :: rest → 2 ≤ sel.toNat →
      Reading bs (.error (.reservedSelector sel))
  | register {reg : Byte} {rest : List Byte} : bs = 0x06#8 :: reg :: rest → 8 ≤ reg.toNat →
      Reading bs (.error (.reservedRegister reg))

/-! Operand decoders behind the bytes `pre` that were read before them. -/

section
variable {pre : List Byte}

theorem Reading.bare {i : Instr} (h : IsRecord i pre) (bs : List Byte) :
    Reading (pre ++ bs) (decodeBare i bs) := .record h rfl

theorem Reading.byteOperand {f : Byte → Instr} (h : ∀ v, IsRecord (f v) (pre ++ [v])) :
    ∀ bs, Reading (pre ++ bs) (decodeByteOperand f bs)
  | [] => .cutShort
  | v :: _ => .record (h v) (by simp)

theorem Reading.wordOperand {f : Word → Instr} (h : ∀ w, IsRecord (f w) (pre ++ wordBytes w)) :
    ∀ bs, Reading (pre ++ bs) (decodeWordOperand f bs)
  | [] => .cutShort
  | [_] => .cutShort
  | hb :: lb :: _ => .record (h (cat hb lb)) (by simp [wordBytes])

/-- Exactly `n` operand bytes, with nothing else to decide (`EV_FRAME_BOUNDARY`, counted lists). -/
theorem Reading.taken {n : Nat} {f : List Byte → Instr} (h : ∀ p, p.length = n → IsRecord (f p) (pre ++ p))
    (bs : List Byte) : Reading (pre ++ bs) ((takeBytes n bs).map fun (p, tail) => (f p, tail)) := by
  by_cases hn : (bs.take n).length = n
  · rw [takeBytes, if_pos hn]
    exact .record (h _ hn) (by simp)
  · rw [takeBytes, if_neg hn]
    exact .cutShort

theorem Reading.counted {scale : Nat} {f : List Byte → Instr}
    (h : ∀ (n : Byte) p, p.length = scale * n.toNat → IsRecord (f p) (pre ++ n :: p)) :
    ∀ bs, Reading (pre ++ bs) (decodeCounted scale f bs)
  | [] => .cutShort
  | n :: rest => by
    have hp := Reading.taken (pre := pre ++ [n]) (fun p hp => by simpa using h n p hp) rest
    simpa [decodeCounted] using hp

end

/-! A byte is the count of a list that it counts. -/

@[simp] theorem countByte_toNat (n : Byte) : countByte n.toNat = n := by simp [countByte]

theorem countFits_toNat (n : Byte) : countFits n.toNat = true := by
  have := n.isLt
  simp; omega

/-- A counted list with one byte for each element, behind its row's fixed bytes. -/
theorem Reading.countedBytes {pre : List Byte} {f : List Byte → Instr}
    (hw : ∀ p, (f p).wellFormed = countFits p.length) (hf : ∀ p, (f p).frameWord = none)
    (he : ∀ p, encode (f p) = pre ++ countByte p.length :: p) (bs : List Byte) :
    Reading (pre ++ bs) (decodeCounted 1 f bs) :=
  .counted (fun n p hp => by
    rw [Nat.one_mul] at hp
    exact ⟨by rw [hw, hp, countFits_toNat], hf p, by rw [he, hp, countByte_toNat]⟩) bs

/-! The two operands with reserved values. -/

theorem decodeSelector_reserved {sel : Byte} (h : 2 ≤ sel.toNat) :
    decodeSelector sel = .error (.reservedSelector sel) := by
  obtain ⟨n, hn⟩ := Nat.exists_eq_add_of_le' h
  simp [decodeSelector, hn]

theorem decodeRegister_reserved {reg : Byte} (h : 8 ≤ reg.toNat) :
    decodeRegister reg = .error (.reservedRegister reg) := by
  obtain ⟨n, hn⟩ := Nat.exists_eq_add_of_le' h
  simp [decodeRegister, hn]

theorem exists_selector {sel : Byte} (h : sel.toNat < 2) : ∃ d : Dest, sel = d.number := by
  obtain rfl | rfl : sel = 0#8 ∨ sel = 1#8 := by bv_omega
  · exact ⟨.peer, rfl⟩
  · exact ⟨.broadcast, rfl⟩

theorem exists_register {reg : Byte} (h : reg.toNat < 8) : ∃ r : RegName, reg = r.number := by
  obtain rfl | rfl | rfl | rfl | rfl | rfl | rfl | rfl : reg = 0#8 ∨ reg = 1#8 ∨ reg = 2#8 ∨ reg = 3#8 ∨
      reg = 4#8 ∨ reg = 5#8 ∨ reg = 6#8 ∨ reg = 7#8 := by bv_omega
  · exact ⟨.selfAddr, rfl⟩
  · exact ⟨.peerAddr, rfl⟩
  · exact ⟨.bcastAddr, rfl⟩
  · exact ⟨.reserve, rfl⟩
  · exact ⟨.status, rfl⟩
  · exact ⟨.sent, rfl⟩
  · exact ⟨.received, rfl⟩
  · exact ⟨.missed, rfl⟩

/-- A selector of 2 or more is reported whatever stands behind it (rule R73; log 17). -/
theorem decode_send_reserved {sel : Byte} (h : 2 ≤ sel.toNat) (bs : List Byte) :
    decode (0x05#8 :: sel :: bs) = .error (.reservedSelector sel) := by
  simp [decode_send, decodeSend, decodeSelector_reserved h]

theorem decode_rd_reserved {reg : Byte} (h : 8 ≤ reg.toNat) (bs : List Byte) :
    decode (0x06#8 :: reg :: bs) = .error (.reservedRegister reg) := by
  simp [decode_rd, decodeRd, decodeRegister_reserved h, Except.map]

theorem Reading.send : ∀ bs, Reading (0x05#8 :: bs) (decode (0x05#8 :: bs))
  | [] => .cutShort
  | sel :: rest => by
    by_cases h : 2 ≤ sel.toNat
    · rw [decode_send_reserved h]
      exact .selector rfl h
    · obtain ⟨d, rfl⟩ := exists_selector (by omega : sel.toNat < 2)
      rw [decode_send_number]
      exact .countedBytes (pre := [0x05#8, d.number]) (f := .send d) (fun _ => rfl) (fun _ => rfl)
        (fun _ => rfl) rest

theorem Reading.rd : ∀ bs, Reading (0x06#8 :: bs) (decode (0x06#8 :: bs))
  | [] => .cutShort
  | reg :: rest => by
    by_cases h : 8 ≤ reg.toNat
    · rw [decode_rd_reserved h]
      exact .register rfl h
    · obtain ⟨r, rfl⟩ := exists_register (by omega : reg.toNat < 8)
      rw [decode_rd_number]
      exact .record (front := [0x06#8, r.number]) ⟨rfl, rfl, rfl⟩ rfl

/-! The rows with fixed bytes between the operation byte and the count. -/

theorem Reading.crcUpdate : ∀ bs, Reading (0x10#8 :: bs) (decodeCrcUpdate bs)
  | [] => .cutShort
  | b :: rest => .wordOperand (pre := [0x10#8, b]) (fun _ => ⟨rfl, rfl, rfl⟩) rest

theorem Reading.encode : ∀ bs, Reading (0x12#8 :: bs) (decodeEncode bs)
  | [] => .cutShort
  | [_] => .cutShort
  | [_, _] => .cutShort
  | dh :: dl :: r :: rest =>
    .countedBytes (pre := [0x12#8, dh, dl, r]) (fun _ => rfl) (fun _ => rfl)
      (fun _ => by simp [Sys2Proof.encode, wordBytes]) rest

theorem Reading.stuff (bs : List Byte) :
    Reading (0x13#8 :: bs) (decodeCounted 2 (fun p => .stuff (wordsOfBytes p)) bs) := by
  refine .counted (pre := [0x13#8]) (fun n p hp => ?_) bs
  have hlen : (wordsOfBytes p).length = n.toNat := by rw [wordsOfBytes_length]; omega
  have hback : wordsToBytes (wordsOfBytes p) = p := wordsToBytes_wordsOfBytes p (by omega)
  refine ⟨?_, rfl, ?_⟩
  · rw [Instr.wellFormed, hlen, countFits_toNat]
  · simp [Sys2Proof.encode, hlen, hback]

theorem Reading.validate : ∀ bs, Reading (0x15#8 :: bs) (decodeValidate bs)
  | [] => .cutShort
  | [_] => .cutShort
  | [_, _] => .cutShort
  | [_, _, _] => .cutShort
  | sh :: sl :: bh :: bl :: rest =>
    .countedBytes (pre := [0x15#8, sh, sl, bh, bl]) (fun _ => rfl) (fun _ => rfl)
      (fun _ => by simp [Sys2Proof.encode, wordBytes]) rest

/-! The classes, index by index (rules R68, R73). -/

theorem Reading.command (bs : List Byte) :
    ∀ n < 8, Reading (BitVec.ofNat 8 n :: bs) (decodeCommand n bs)
  | 0, _ => .bare (pre := [0x00#8]) ⟨rfl, rfl, rfl⟩ bs
  | 1, _ => .wordOperand (pre := [0x01#8]) (fun _ => ⟨rfl, rfl, rfl⟩) bs
  | 2, _ => .wordOperand (pre := [0x02#8]) (fun _ => ⟨rfl, rfl, rfl⟩) bs
  | 3, _ => .wordOperand (pre := [0x03#8]) (fun _ => ⟨rfl, rfl, rfl⟩) bs
  | 4, _ => .byteOperand (pre := [0x04#8]) (fun _ => ⟨rfl, rfl, rfl⟩) bs
  | 5, _ => .send bs
  | 6, _ => .rd bs
  | 7, _ => .bare (pre := [0x07#8]) ⟨rfl, rfl, rfl⟩ bs
  | n + 8, h => absurd h (by omega)

theorem Reading.event (bs : List Byte) :
    ∀ n < 8, Reading (BitVec.ofNat 8 (8 + n) :: bs) (decodeEvent n bs)
  | 0, _ => .bare (pre := [0x08#8]) ⟨rfl, rfl, rfl⟩ bs
  | 1, _ => .taken (pre := [0x09#8]) (fun p hp => ⟨by simp [Instr.wellFormed, hp], rfl, rfl⟩) bs
  | 2, _ => .bare (pre := [0x0A#8]) ⟨rfl, rfl, rfl⟩ bs
  | n + 3, h => by
    have hn : (BitVec.ofNat 3 (n + 3)).toNat = n + 3 := by simp; omega
    refine .bare (pre := [_]) ⟨?_, rfl, ?_⟩ bs
    · simp only [Instr.wellFormed, hn]; simp
    · rw [Sys2Proof.encode, opByte_event, hn]

theorem Reading.micro (bs : List Byte) :
    ∀ n < 8, Reading (BitVec.ofNat 8 (16 + n) :: bs) (decodeMicro n bs)
  | 0, _ => .crcUpdate bs
  | 1, _ => .countedBytes (pre := [0x11#8]) (fun _ => rfl) (fun _ => rfl) (fun _ => rfl) bs
  | 2, _ => .encode bs
  | 3, _ => .stuff bs
  | 4, _ => .countedBytes (pre := [0x14#8]) (fun _ => rfl) (fun _ => rfl) (fun _ => rfl) bs
  | 5, _ => .validate bs
  | 6, _ => .bare (pre := [0x16#8]) ⟨rfl, rfl, rfl⟩ bs
  | 7, _ => .bare (pre := [0x17#8]) ⟨rfl, rfl, rfl⟩ bs
  | n + 8, h => absurd h (by omega)

/-- A byte in a range that begins at `base`. -/
theorem exists_opByte {op : Byte} (base : Nat) {size : Nat} (hl : base ≤ op.toNat)
    (hu : op.toNat < base + size) : ∃ n < size, op = BitVec.ofNat 8 (base + n) :=
  ⟨op.toNat - base, by omega, by simp [Nat.add_sub_cancel' hl]⟩

theorem exists_class11 {op : Byte} (hl : 24 ≤ op.toNat) (hu : op.toNat < 32) :
    ∃ index : BitVec 3, op = 0b00011#5 ++ index := by
  obtain ⟨n, hn, rfl⟩ := exists_opByte (size := 8) 24 hl hu
  exact ⟨BitVec.ofNat 3 n, by rw [opByte_class11, BitVec.toNat_ofNat, Nat.mod_eq_of_lt hn]⟩

theorem exists_reservedEvent {op : Byte} (hl : 0x0B ≤ op.toNat) (hu : op.toNat < 0x10) :
    ∃ index : BitVec 3, 3 ≤ index.toNat ∧ op = 0b00001#5 ++ index := by
  obtain ⟨n, hn, rfl⟩ := exists_opByte (size := 8) 8 (by omega) hu
  have hk : (BitVec.ofNat 3 n).toNat = n := by rw [BitVec.toNat_ofNat, Nat.mod_eq_of_lt hn]
  refine ⟨BitVec.ofNat 3 n, ?_, by rw [opByte_event, hk]⟩
  rw [BitVec.toNat_ofNat] at hl
  omega

/-- What the decoder answers to a byte string. -/
theorem decode_reading : ∀ bs : List Byte, Reading bs (decode bs)
  | [] => .cutShort
  | op :: bs => by
    by_cases h0 : op.toNat < 8
    · obtain ⟨n, hn, rfl⟩ := exists_opByte (size := 8) 0 (by omega) (by omega)
      rw [Nat.zero_add, decode_command hn]
      exact .command bs n hn
    by_cases h1 : op.toNat < 16
    · obtain ⟨n, hn, rfl⟩ := exists_opByte (size := 8) 8 (by omega) h1
      rw [decode_event hn]
      exact .event bs n hn
    by_cases h2 : op.toNat < 24
    · obtain ⟨n, hn, rfl⟩ := exists_opByte (size := 8) 16 (by omega) h2
      rw [decode_micro hn]
      exact .micro bs n hn
    by_cases h3 : op.toNat < 32
    · obtain ⟨index, rfl⟩ := exists_class11 (by omega) h3
      rw [decode_reservedClass11]
      exact .record (front := [_]) ⟨rfl, rfl, rfl⟩ rfl
    · rw [decode_reservedHighBits (by omega)]
      exact .record (front := [op]) ⟨by simp [Instr.wellFormed]; omega, rfl, rfl⟩ rfl

/-- Settles O41: what the decoder reads is the record in front of the rest. -/
theorem encodeOfDecodeIsTheRecord : Obligations.EncodeOfDecodeIsTheRecord := by
  intro bs tail i h
  have hr := decode_reading bs
  rw [h] at hr
  obtain ⟨⟨hw, hf, rfl⟩, hbs⟩ := hr
  exact ⟨hw, hf, hbs⟩

/-- A proper beginning of a well-formed record is cut short: read as a record it would leave some of
the longer record unread, and a reserved operand would stand in the longer record too. -/
theorem decode_of_properPrefix {i : Instr} {bs more : List Byte} (hw : i.wellFormed = true)
    (hf : i.frameWord = none) (hmore : more ≠ []) (h : encode i = bs ++ more) :
    decode bs = .error .truncated := by
  have hi : decode (bs ++ more) = .ok (i, []) := by
    simpa [h] using decodeOfEncodeIsTheOperation i [] hw hf
  have hr := decode_reading bs
  generalize decode bs = answer at hr ⊢
  cases hr with
  | @record j _ tail hj hbs =>
    obtain ⟨hwj, hfj, rfl⟩ := hj
    have hlonger := decodeOfEncodeIsTheOperation j (tail ++ more) hwj hfj
    rw [← List.append_assoc, hbs, hi] at hlonger
    simp [hmore] at hlonger
  | cutShort => rfl
  | selector hbs hsel => simp [hbs, decode_send_reserved hsel] at hi
  | register hbs hreg => simp [hbs, decode_rd_reserved hreg] at hi

end Sys2Proof
end

section
/-! PROOFS. What a step does with a reserved encoding (spec 30_encoding.md rule R73), and records written
out byte by byte (rules R68 to R71). -/

namespace Sys2Proof.Machine

open Sys2Proof.Claims (reservedByte)

/-! The meanings of the five reserved rows. -/

theorem exec_reserved07 (s : State) : exec .reserved07 s = .refused (.reservedOperation 0x07#8) := rfl

theorem exec_reserved0B0F (index : BitVec 3) (s : State) :
    exec (.reserved0B0F index) s = .refused (.reservedOperation (0b00001#5 ++ index)) := rfl

theorem exec_reserved1617 (low : BitVec 1) (s : State) :
    exec (.reserved1617 low) s = .refused (.reservedOperation (0b0001011#7 ++ low)) := rfl

theorem exec_reservedClass11 (index : BitVec 3) (s : State) :
    exec (.reservedClass11 index) s = .refused (.reservedOperation (0b00011#5 ++ index)) := rfl

theorem exec_reservedHighBits (op : Byte) (s : State) :
    exec (.reservedHighBits op) s = .refused (.reservedOperation op) := rfl

/-- Settles O45: the kept bits stand behind the row's fixed bits, appended or by OR. -/
theorem reservedRowsRefuse : Obligations.ReservedRowsRefuse := by
  intro s index low op
  have h0B0F : 0b00001#5 ++ index = 0x08#8 ||| index.setWidth 8 := by revert index; decide
  have h1617 : 0b0001011#7 ++ low = 0x16#8 ||| low.setWidth 8 := by revert low; decide
  have h11 : 0b00011#5 ++ index = 0x18#8 ||| index.setWidth 8 := by revert index; decide
  rw [← h0B0F, ← h1617, ← h11]
  exact ⟨exec_reserved07 s, exec_reserved0B0F index s, exec_reserved1617 low s,
    exec_reservedClass11 index s, exec_reservedHighBits op s⟩

/-- A reserved operation byte reads as a row of no agent's class, whose meaning refuses it by name. -/
theorem decode_reservedByte {op : Byte} (h : reservedByte op) (tail : List Byte) :
    ∃ i, decode (op :: tail) = .ok (i, tail) ∧ issuerOf i = none ∧
      ∀ s, exec i s = .refused (.reservedOperation op) := by
  obtain h | ⟨hl, hu⟩ | rfl | ⟨hl, hu⟩ | rfl | rfl := h
  · exact ⟨.reservedHighBits op, decode_reservedHighBits h tail, rfl, exec_reservedHighBits op⟩
  · obtain ⟨index, rfl⟩ := exists_class11 hl (by omega)
    exact ⟨.reservedClass11 index, decode_reservedClass11 index tail, rfl, exec_reservedClass11 index⟩
  · exact ⟨.reserved07, decode_reserved07 tail, rfl, exec_reserved07⟩
  · obtain ⟨index, hi, rfl⟩ := exists_reservedEvent hl (by omega)
    exact ⟨.reserved0B0F index, decode_reserved0B0F hi tail, rfl, exec_reserved0B0F index⟩
  · exact ⟨.reserved1617 0#1, decode_reserved1617 0#1 tail, rfl, exec_reserved1617 0#1⟩
  · exact ⟨.reserved1617 1#1, decode_reserved1617 1#1 tail, rfl, exec_reserved1617 1#1⟩

/-- Bytes that are no record are refused for the decoder's reason. -/
theorem step_of_decode_error {s : State} {a : Agent} {bs : List Byte} {rest : List Input} {e : DecodeError}
    (hp : s.pending = .record a bs :: rest) (hd : decode bs = .error e) :
    step s = .refused (refusalOf e) := by
  simp [step, fetch, hp, hd]

/-- Settles O44: a reserved operation byte runs a row that refuses; the other three are no record. -/
theorem reservedEncodingsAreRefused : Obligations.ReservedEncodingsAreRefused := by
  intro s a bs rest hp
  refine ⟨?opByte, ?selector, ?register, ?cutShort⟩
  case opByte =>
    rintro op tail rfl hop
    obtain ⟨i, hd, hnone, hexec⟩ := decode_reservedByte hop tail
    have hissue : mayIssue a i = true := by simp [mayIssue, hnone]
    rw [step_of_fetch_run (fetch_of_pending_record hp hd hissue), hexec]
  case selector =>
    rintro sel tail rfl hsel
    exact step_of_decode_error hp (decode_send_reserved hsel tail)
  case register =>
    rintro reg tail rfl hreg
    exact step_of_decode_error hp (decode_rd_reserved hreg tail)
  case cutShort =>
    intro i more hw hf hmore h
    exact step_of_decode_error hp (decode_of_properPrefix hw hf hmore h)

/-- Settles O43, by running the decoder on each record. -/
theorem writtenRecordsDecode : Obligations.WrittenRecordsDecode :=
  ⟨rfl, rfl, rfl, rfl, rfl, rfl, rfl, rfl⟩

end Sys2Proof.Machine
end

section
/-! PROOFS. Frame words (spec 30_encoding.md rules R57 to R60): a word and its fields. -/

namespace Sys2Proof

/-! The fields of a header word (rule R58). -/

theorem header_mutation (m : BitVec 1) (r : BitVec 7) (len : Byte) :
    (m ++ r ++ len : Word).extractLsb' 15 1 = m :=
  (BitVec.extractLsb'_append_eq_of_le (xhi := m ++ r) (xlo := len) (by decide)).trans
    BitVec.extractLsb'_append_eq_left

theorem header_reserve (m : BitVec 1) (r : BitVec 7) (len : Byte) :
    (m ++ r ++ len : Word).extractLsb' 8 7 = r :=
  (BitVec.extractLsb'_append_eq_of_le (xhi := m ++ r) (xlo := len) (by decide)).trans
    BitVec.extractLsb'_append_eq_right

theorem header_length (m : BitVec 1) (r : BitVec 7) (len : Byte) : lo (m ++ r ++ len) = len :=
  lo_cat (m ++ r) len

theorem header_of_fields (w : Word) : w.extractLsb' 15 1 ++ w.extractLsb' 8 7 ++ lo w = w := by
  have hhi : w.extractLsb' 15 1 ++ w.extractLsb' 8 7 = hi w :=
    BitVec.extractLsb'_append_extractLsb'_eq_extractLsb' rfl
  rw [hhi]
  exact cat_hi_lo w

/-! The words of the rows with fields (rules R58, R59). -/

theorem Instr.frameWord_wHeader (m : BitVec 1) (r : BitVec 7) (len : Byte) :
    (Instr.wHeader m r len).frameWord = some (.header, m ++ r ++ len) := rfl

theorem Instr.frameWord_wPayload (h l : Byte) :
    (Instr.wPayload h l).frameWord = some (.payload, cat h l) := rfl

/-- Settles O42, by the place in the frame. -/
theorem frameWordsRoundTrip : Obligations.FrameWordsRoundTrip := by
  refine ⟨fun i role w hw hf => ?back, fun role w i hd => ?read⟩
  case back =>
    cases i with
    | wAddress a => cases hf; rfl
    | wHeader m r len =>
      cases hf
      simp only [decodeFrameWord, header_mutation, header_reserve, header_length]
    | wPayload h l => cases hf; simp [decodeFrameWord]
    | wChecksum c => cases hf; simpa [decodeFrameWord, Instr.wellFormed] using hw
    | wTerminator => cases hf; rfl
    | _ => cases hf
  case read =>
    cases role with
    | address => obtain rfl := Option.some.inj hd; exact ⟨rfl, rfl⟩
    | header =>
      obtain rfl := Option.some.inj hd
      exact ⟨rfl, by rw [Instr.frameWord_wHeader, header_of_fields]⟩
    | payload =>
      obtain rfl := Option.some.inj hd
      exact ⟨rfl, by rw [Instr.frameWord_wPayload, cat_hi_lo]⟩
    | checksum =>
      obtain ⟨hne, rfl⟩ : w ≠ Config.termWord ∧ Instr.wChecksum w = i := by
        simpa [decodeFrameWord] using hd
      exact ⟨by simpa [Instr.wellFormed] using hne, rfl⟩
    | terminator =>
      obtain ⟨rfl, rfl⟩ : w = Config.termWord ∧ Instr.wTerminator = i := by
        simpa [decodeFrameWord] using hd
      exact ⟨rfl, rfl⟩

end Sys2Proof
end

section
/-! PROOFS. The pseudo-operations (spec 30_encoding.md rule R76). -/

namespace Sys2Proof.Machine

theorem execAll_cons_of_next {i : Instr} {is : List Instr} {s t : State} (h : exec i s = .next t) :
    execAll (i :: is) s = execAll is t := by
  simp [execAll, h]

theorem execAll_singleton (i : Instr) (s : State) : execAll [i] s = exec i s := by
  cases h : exec i s <;> simp [execAll, h]

theorem exec_rd (reg : RegName) (s : State) :
    exec (.rd reg) s = .next (s.respond (.u32 (s.readRegister reg))) := rfl

/-- Bit 0 of `STATUS` is the gate (10_state.md rule R18). -/
theorem State.status_bit0 (s : State) : s.status.getLsbD 0 = s.busy := by
  have h := BitVec.getLsbD_append (x := 0#30 ++ s.rxState.bit) (y := BitVec.ofBool s.busy) (i := 0)
  exact h.trans (by simp)

theorem State.sendFrame_respond (s : State) (r : Result) (sel : Dest) (p : List Byte) :
    (s.respond r).sendFrame sel p = s.sendFrame sel p := by
  cases sel <;> rfl

/-- `SEND` does not look at what was returned before it. -/
theorem exec_send_respond (s : State) (r : Result) (sel : Dest) (p : List Byte) :
    exec (.send sel p) (s.respond r) = exec (.send sel p) s := by
  show execSend sel p (s.respond r) = execSend sel p s
  rw [execSend, execSend, State.sendFrame_respond, State.respond_busy]
  rfl

theorem execAll_polls_send (sel : Dest) (p : List Byte) (polls : Nat) (s : State) :
    execAll (List.replicate polls (.rd .status) ++ [.send sel p]) s = exec (.send sel p) s := by
  induction polls generalizing s with
  | zero => exact execAll_singleton _ s
  | succ polls ih =>
    rw [List.replicate_succ, List.cons_append, execAll_cons_of_next (exec_rd .status s), ih,
      exec_send_respond]

/-- Settles O55: the setters run as they stand, a poll returns `STATUS`, and polls leave `SEND` alone. -/
theorem pseudoOperationsExpand : Obligations.PseudoOperationsExpand :=
  fun s polls sel p _ _ _ => ⟨rfl, ⟨_, rfl, s.status_bit0⟩, execAll_polls_send sel p polls s⟩

end Sys2Proof.Machine
end

section
/-! PROOFS. Runs of equal bits in what `STUFF` writes (spec 42_bit_stuffer.md rules R97, R98, R103), and
that no byte of it before the terminator is `0xFF` (30_encoding.md rule R62). -/

namespace Sys2Proof.Machine

/-- Behind a run `r`, no run of the stream is longer than five bits, and a run of five is followed, inside
the stream, by the complement. -/
def FivesBroken : Run → List Bool → Prop
  | _, [] => True
  | r, b :: bs =>
    (r.see b).len ≤ 5 ∧ ((r.see b).len = 5 → ∃ rest, bs = (!b) :: rest) ∧ FivesBroken (r.see b) bs

/-- An inserted complement is counted as any other bit is. -/
theorem Run.see_complement (r : Run) (b : Bool) : (r.see b).see (!b) = Run.broken b := by
  cases b <;> rfl

/-- The stuffer breaks every run of five. -/
theorem stuffBits_fivesBroken (r : Run) (bits : List Bool) (hr : r.len ≤ 4) :
    FivesBroken r (stuffBits r bits).1 := by
  induction bits generalizing r with
  | nil => trivial
  | cons b bits ih =>
    have hlen := (r.see_len b).2
    by_cases h5 : (r.see b).len = 5
    · have hout : (stuffBits r (b :: bits)).1 = b :: (!b) :: (stuffBits (Run.broken b) bits).1 := by
        simp [stuffBits, stuffBit, h5]
      rw [hout]
      refine ⟨h5.le, fun _ => ⟨_, rfl⟩, ?_⟩
      rw [FivesBroken, Run.see_complement]
      exact ⟨by simp, fun h => by simp at h, ih _ (by simp)⟩
    · have hout : (stuffBits r (b :: bits)).1 = b :: (stuffBits (r.see b) bits).1 := by
        simp [stuffBits, stuffBit, h5]
      rw [hout]
      exact ⟨by omega, fun h => absurd h h5, ih _ (by omega)⟩

/-- A later part of the stream stands behind some run. -/
theorem FivesBroken.drop {r : Run} {before after : List Bool} (h : FivesBroken r (before ++ after)) :
    ∃ r', FivesBroken r' after := by
  induction before generalizing r with
  | nil => exact ⟨r, h⟩
  | cons b before ih => exact ih h.2.2

/-- Seeing one bit again lengthens its run. -/
theorem Run.see_see_len (r : Run) (b : Bool) : ((r.see b).see b).len = (r.see b).len + 1 := by
  simp [Run.see]

theorem FivesBroken.complement {r : Run} {b : Bool} {after : List Bool}
    (h : FivesBroken r (List.replicate 5 b ++ after)) : ∃ rest, after = (!b) :: rest := by
  obtain ⟨-, -, -, -, -, -, -, -, hle, hbreak, -⟩ := h
  have hpos := (r.see_len b).1
  simp only [Run.see_see_len] at hle hbreak
  exact hbreak (by omega)

/-- Five equal bits in the stuffed data region are followed, inside it, by their complement (rule R103). -/
theorem stuffedRegion_complement {initLast : Option Bool} {u : List Word} {before after : List Bool}
    {b : Bool} (h : stuffedRegion initLast u = before ++ List.replicate 5 b ++ after) :
    ∃ rest, after = (!b) :: rest := by
  have hb : FivesBroken (Run.start initLast) (stuffedRegion initLast u) :=
    stuffBits_fivesBroken _ _ (by simp [Run.start])
  rw [h, List.append_assoc] at hb
  obtain ⟨_, hb⟩ := hb.drop
  exact hb.complement

theorem stuffedRegion_no_eight_ones {initLast : Option Bool} {u : List Word} {before after : List Bool} :
    stuffedRegion initLast u ≠ before ++ List.replicate 8 true ++ after := by
  intro h
  have h5 : stuffedRegion initLast u =
      before ++ List.replicate 5 true ++ (List.replicate 3 true ++ after) := by
    rw [h]; simp [List.replicate]
  obtain ⟨rest, hrest⟩ := stuffedRegion_complement h5
  simp [List.replicate] at hrest

/-- The zeros of the pad take no part in a run of ones (rule R101). -/
theorem paddedRegion_no_eight_ones {initLast : Option Bool} {u : List Word} {before after : List Bool} :
    paddedRegion initLast u ≠ before ++ List.replicate 8 true ++ after := by
  intro h
  obtain ⟨zeros, hregion, hpad⟩ | ⟨rest, hregion, -⟩ := List.append_eq_append_iff.mp h
  · obtain rfl | ⟨zeros, b, rfl⟩ := List.eq_nil_or_concat zeros
    · exact stuffedRegion_no_eight_ones (after := []) (by simpa using hregion.symm)
    · have hmem : b ∈ List.replicate (padLength (stuffedRegion initLast u).length) false := by
        rw [hpad]; simp
      have hfalse : b = false := List.eq_of_mem_replicate hmem
      have htrue := congrArg List.getLast? hregion
      simp [List.getLast?_append, hfalse] at htrue
  · exact stuffedRegion_no_eight_ones hregion

/-- The words before the terminator hold region and pad, bit for bit (rules R94, R101). -/
theorem exists_stuffWords_body (u : List Word) : ∃ ws : List Word,
    stuffWords u = ws ++ [0xFFFF#16] ∧ ws.flatMap wordBits = paddedRegion Config.stuffInitLast u := by
  have hlen := (paddedRegion_length u).1
  refine ⟨_, rfl, ?_⟩
  rw [packWords_bits _ _ (by omega), Nat.mul_div_cancel' (Nat.dvd_of_mod_eq_zero hlen)]
  simp

theorem byteBits_termByte : byteBits 0xFF#8 = List.replicate 8 true := by decide

/-- Settles O34: a byte `FF` before the terminator would be eight ones in region and pad. -/
theorem noSentinelByteBeforeTheTerminator : Obligations.NoSentinelByteBeforeTheTerminator := by
  intro u
  obtain ⟨ws, hws, hbits⟩ := exists_stuffWords_body u
  refine ⟨wordsToBytes ws, ?_, by simp, ?_⟩
  · rw [hws, wordsToBytes_append]; rfl
  · rintro _ hb rfl
    obtain ⟨before, after, hsplit⟩ := List.append_of_mem hb
    rw [← wordsToBytes_bits, hsplit] at hbits
    exact paddedRegion_no_eight_ones (before := before.flatMap byteBits)
      (after := after.flatMap byteBits) (hbits.symm.trans (by simp [byteBits_termByte]))

end Sys2Proof.Machine
end

section
/-! PROOFS. The Checksum Engine (spec 40_crc.md): one input byte is the byte-wise form of rule R79, and the
properties of rule R81, each from one fact about a byte-wise step: it is linear, injective, and a plain
shift while no bit reaches the top. -/

namespace Sys2Proof.Machine

open Sys2Proof.Claims (byteWiseStep byteWiseUpdate)

/-! The bit-serial engine against the byte-wise form (rule R79). -/

/-- The register of the byte-wise form: the bits of the byte still to come are already XORed in. -/
def CrcEngine.merged (c : CrcEngine) : Word := c.reg ^^^ (c.byte.setWidth 16 <<< 8)

/-- The top bit of the merged register is the test bit of rule R78. -/
theorem CrcEngine.merged_msb (c : CrcEngine) : c.merged.getLsbD 15 = (c.reg.msb ^^ c.byte.msb) := by
  simp [merged, BitVec.msb_eq_getLsbD_last]

theorem shiftLeft_setWidth_byte (b : Byte) :
    (b <<< 1).setWidth 16 <<< 8 = (b.setWidth 16 <<< 8 : Word) <<< 1 := by
  apply BitVec.eq_of_getLsbD_eq
  grind

theorem CrcEngine.bitStep_merged (c : CrcEngine) : c.bitStep.merged = byteWiseStep c.merged := by
  have hshift : c.merged <<< 1 = (c.reg <<< 1) ^^^ ((c.byte <<< 1).setWidth 16 <<< 8) := by
    rw [merged, BitVec.shiftLeft_xor_distrib, shiftLeft_setWidth_byte]
  rw [byteWiseStep, c.merged_msb, hshift]
  cases h : c.reg.msb ^^ c.byte.msb
  · simp [bitStep, merged, h]
  · simp [bitStep, merged, h, BitVec.xor_assoc, BitVec.xor_comm _ Config.crcPoly]

theorem CrcEngine.bitSteps_merged (n : Nat) (c : CrcEngine) :
    (bitSteps n c).merged = byteWiseStep^[n] c.merged := by
  induction n generalizing c with
  | zero => rfl
  | succ n ih => rw [bitSteps, ih, bitStep_merged, Function.iterate_succ_apply]

theorem CrcEngine.feed_merged (c : CrcEngine) (b : Byte) : (c.feed b).merged = byteWiseUpdate b c.reg :=
  bitSteps_merged 8 _

/-- One input byte leaves the byte-wise value and an empty byte register (rules R78, R79). -/
theorem CrcEngine.feed_eq (c : CrcEngine) (b : Byte) :
    c.feed b = { reg := byteWiseUpdate b c.reg, byte := 0#8 } := by
  have hreg : (c.feed b).merged = (c.feed b).reg := by simp [merged]
  rw [← c.feed_merged b, hreg, ← c.feed_byte b]

theorem crcUpdate_eq_byteWise (b : Byte) (r : Word) : crcUpdate b r = byteWiseUpdate b r := by
  rw [crcUpdate, CrcEngine.feed_eq]

/-- Settles O17: the merged register of the bit-serial engine takes byte-wise steps. -/
theorem crcUpdateEqualsByteWiseForm : Obligations.CrcUpdateEqualsByteWiseForm := by
  intro s byte reg
  show execCrc16Update byte reg s = _
  rw [execCrc16Update, CrcEngine.feed_eq]
  rfl

theorem crcOf_eq_byteWise (bs : List Byte) :
    crcOf bs = bs.foldl (fun r b => byteWiseUpdate b r) 0xFFFF#16 := by
  simp only [crcOf, crcUpdate_eq_byteWise]

/-- Settles O18: the engine's register after a sequence is the checksum, and each byte of it is a
byte-wise update. -/
theorem crcFoldsTheUpdateFromAllOnes : Obligations.CrcFoldsTheUpdateFromAllOnes := by
  intro s bs
  refine ⟨fun hn tail => ?_, s.crc.run bs, ?_, ?_⟩
  · rw [decode_crc16]
    exact decodeCounted_bytes .crc16 (decide_eq_true hn) tail
  · rw [← crcOf_eq_byteWise, ← CrcEngine.run_reg s.crc]
    rfl
  · rw [CrcEngine.run_reg, crcOf_eq_byteWise]

/-! The byte-wise step. -/

theorem byteWiseStep_xor (x y : Word) : byteWiseStep (x ^^^ y) = byteWiseStep x ^^^ byteWiseStep y := by
  unfold byteWiseStep
  rw [BitVec.getLsbD_xor, BitVec.shiftLeft_xor_distrib]
  cases x.getLsbD 15 <;> cases y.getLsbD 15 <;> grind

/-- The polynomial has a constant term, so bit 0 of the result tells whether it was added. -/
theorem byteWiseStep_getLsbD_zero (x : Word) : (byteWiseStep x).getLsbD 0 = x.getLsbD 15 := by
  unfold byteWiseStep
  cases x.getLsbD 15 <;> simp

theorem byteWiseStep_injective : Function.Injective byteWiseStep := by
  intro x y h
  have htop : x.getLsbD 15 = y.getLsbD 15 := by
    rw [← byteWiseStep_getLsbD_zero, h, byteWiseStep_getLsbD_zero]
  have hshift : x <<< 1 = y <<< 1 := by
    unfold byteWiseStep at h
    rw [htop] at h
    split at h
    · exact (BitVec.xor_left_inj _).mp h
    · exact h
  apply BitVec.eq_of_getLsbD_eq
  intro k hk
  obtain rfl | hlt : k = 15 ∨ k < 15 := by omega
  · exact htop
  · simpa [hk, show k + 1 < 16 by omega] using congrArg (·.getLsbD (k + 1)) hshift

theorem byteWiseStep_iterate_xor (n : Nat) (x y : Word) :
    byteWiseStep^[n] (x ^^^ y) = byteWiseStep^[n] x ^^^ byteWiseStep^[n] y := by
  induction n generalizing x y with
  | zero => rfl
  | succ n ih => simp only [Function.iterate_succ_apply, byteWiseStep_xor, ih]

/-- A byte in the low half takes eight steps to reach the top bit; until then the steps only shift. -/
theorem byteWiseStep_iterate_byte (b : Byte) {n : Nat} (hn : n ≤ 8) :
    byteWiseStep^[n] (b.setWidth 16) = b.setWidth 16 <<< n := by
  induction n with
  | zero => simp
  | succ n ih =>
    have htop : (b.setWidth 16 <<< n : Word).getLsbD 15 = false := by
      have hout : 8 ≤ 15 - n := by omega
      simp [hout]
    rw [Function.iterate_succ_apply', ih (by omega), byteWiseStep, htop, BitVec.shiftLeft_add]
    rfl

/-! One byte. -/

theorem setWidth_shiftLeft_injective : Function.Injective (fun b : Byte => (b.setWidth 16 <<< 8 : Word)) := by
  intro b c h
  apply BitVec.eq_of_getLsbD_eq
  intro k hk
  simpa [hk, show 8 + k < 16 by omega] using congrArg (·.getLsbD (8 + k)) h

theorem crcUpdate_xor (b c : Byte) (r q : Word) :
    crcUpdate (b ^^^ c) (r ^^^ q) = crcUpdate b r ^^^ crcUpdate c q := by
  simp only [crcUpdate_eq_byteWise, byteWiseUpdate, ← byteWiseStep_iterate_xor]
  congr 1
  rw [BitVec.setWidth_xor, BitVec.shiftLeft_xor_distrib]
  ac_rfl

theorem crcUpdate_reg_injective (b : Byte) : Function.Injective (crcUpdate b) := by
  intro r q h
  simp only [crcUpdate_eq_byteWise] at h
  exact (BitVec.xor_left_inj _).mp (byteWiseStep_injective.iterate 8 h)

theorem crcUpdate_byte_injective (r : Word) : Function.Injective (fun b => crcUpdate b r) := by
  intro b c h
  simp only [crcUpdate_eq_byteWise] at h
  exact setWidth_shiftLeft_injective ((BitVec.xor_right_inj _).mp (byteWiseStep_injective.iterate 8 h))

/-! A byte sequence, from any register value. -/

/-- The register behind a byte sequence that is fed from register `r`. -/
def crcFrom (r : Word) (bs : List Byte) : Word := bs.foldl (fun r b => crcUpdate b r) r

theorem crcOf_eq_crcFrom (bs : List Byte) : crcOf bs = crcFrom 0xFFFF#16 bs := rfl

@[simp] theorem crcFrom_nil (r : Word) : crcFrom r [] = r := rfl

@[simp] theorem crcFrom_cons (r : Word) (b : Byte) (bs : List Byte) :
    crcFrom r (b :: bs) = crcFrom (crcUpdate b r) bs := rfl

theorem crcOf_append_eq_crcFrom (xs ys : List Byte) : crcOf (xs ++ ys) = crcFrom (crcOf xs) ys :=
  crcOf_append xs ys

theorem crcFrom_injective (bs : List Byte) : Function.Injective (fun r => crcFrom r bs) := by
  induction bs with
  | nil => exact fun _ _ h => h
  | cons b bs ih => exact fun _ _ h => crcUpdate_reg_injective b (ih h)

/-- Linearity in the register and the bytes together. -/
theorem crcFrom_zipWith_xor (r q : Word) {a b : List Byte} (hlen : a.length = b.length) :
    crcFrom (r ^^^ q) (List.zipWith (· ^^^ ·) a b) = crcFrom r a ^^^ crcFrom q b := by
  induction a generalizing r q b with
  | nil => cases b with
    | nil => rfl
    | cons y b => simp at hlen
  | cons x a ih => cases b with
    | nil => simp at hlen
    | cons y b =>
      simp only [List.zipWith_cons_cons, crcFrom_cons, crcUpdate_xor]
      exact ih _ _ (by simpa using hlen)

theorem zipWith_xor_zeros (a : List Byte) :
    List.zipWith (· ^^^ ·) a (List.replicate a.length 0x00#8) = a := by
  induction a with
  | nil => rfl
  | cons x a ih => simp [List.replicate_succ, ih]

/-- A change of the register passes through the bytes behind it as it would through zeros. -/
theorem crcFrom_xor (r d : Word) (bs : List Byte) :
    crcFrom (r ^^^ d) bs = crcFrom r bs ^^^ crcFrom d (List.replicate bs.length 0x00#8) := by
  rw [← crcFrom_zipWith_xor r d (by simp), zipWith_xor_zeros]

/-- Settles O19: the initial value is the XOR of its three copies. -/
theorem crcIsLinear : Obligations.CrcIsLinear := by
  intro a b hlen
  let c := List.zipWith (· ^^^ ·) a b
  have hc : c.length = a.length := by simp [c, hlen]
  calc crcOf c = crcFrom ((0xFFFF#16 ^^^ 0xFFFF#16) ^^^ 0xFFFF#16) c := rfl
    _ = crcFrom (0xFFFF#16 ^^^ 0xFFFF#16) c ^^^ crcOf (List.replicate a.length 0x00#8) := by
      rw [crcFrom_xor, hc, ← crcOf_eq_crcFrom]
    _ = _ := by rw [crcFrom_zipWith_xor _ _ hlen, ← crcOf_eq_crcFrom, ← crcOf_eq_crcFrom]

/-! One changed byte (rule R81 (b), (d)). -/

/-- A changed byte within a message: what stands before it, itself, and what stands behind it. -/
theorem crcOf_modify (m : List Byte) {k : Nat} (hk : k < m.length) (f : Byte → Byte) :
    ∃ (r : Word) (b : Byte) (rest : List Byte), rest.length = m.length - (k + 1) ∧
      crcOf m = crcFrom (crcUpdate b r) rest ∧ crcOf (m.modify k f) = crcFrom (crcUpdate (f b) r) rest := by
  obtain ⟨before, b, rest, hm, hbefore, hmod⟩ := List.exists_of_modify f hk
  refine ⟨crcOf before, b, rest, ?_, ?_, ?_⟩
  · rw [hm, ← hbefore]; simp; omega
  · rw [hm, crcOf_append_eq_crcFrom, crcFrom_cons]
  · rw [hmod, crcOf_append_eq_crcFrom, crcFrom_cons]

theorem byte_bit_ne_zero {j : Nat} (hj : j < 8) : 1#8 <<< j ≠ 0#8 := by
  intro h
  simpa [hj] using congrArg (·.getLsbD j) h

/-- Settles O20: neither the changed byte nor any byte behind it can merge two different registers. -/
theorem singleBitFlipChangesTheCrc : Obligations.SingleBitFlipChangesTheCrc := by
  intro m k j hk hj h
  obtain ⟨r, b, rest, -, hcrc, hflipped⟩ := crcOf_modify m hk (· ^^^ (1#8 <<< j))
  rw [hcrc, hflipped] at h
  have hbyte : b ^^^ (1#8 <<< j) = b := crcUpdate_byte_injective r (crcFrom_injective rest h)
  exact byte_bit_ne_zero hj ((BitVec.xor_right_inj b).mp (by rw [hbyte, BitVec.xor_zero]))

/-- XORing `e` into byte `k` changes the checksum as it changes that of a zero register and zero bytes. -/
theorem crcOf_modify_xor (m : List Byte) {k : Nat} (hk : k < m.length) (e : Byte) :
    crcOf (m.modify k (· ^^^ e)) =
      crcOf m ^^^ crcFrom 0x0000#16 (e :: List.replicate (m.length - (k + 1)) 0x00#8) := by
  obtain ⟨r, b, rest, hlen, hcrc, hflipped⟩ := crcOf_modify m hk (· ^^^ e)
  have hsplit : crcUpdate (b ^^^ e) r = crcUpdate b r ^^^ crcUpdate e 0x0000#16 := by
    rw [← crcUpdate_xor, BitVec.xor_zero]
  rw [hflipped, hcrc, hsplit, crcFrom_xor, hlen, crcFrom_cons]

/-- The collision rule's flip, before the 1, 3 or 17 bytes that follow byte 2. -/
theorem crcFrom_headerFlip :
    crcFrom 0x0000#16 (0x80#8 :: List.replicate 1 0x00#8) = 0x8009#16 ∧
    crcFrom 0x0000#16 (0x80#8 :: List.replicate 3 0x00#8) = 0x803F#16 ∧
    crcFrom 0x0000#16 (0x80#8 :: List.replicate 17 0x00#8) = 0x8A3F#16 := by decide +kernel

/-- Settles O22: the flip's effect does not depend on the message, so zeros give its value. -/
theorem headerFlipXorsAKnownValue : Obligations.HeaderFlipXorsAKnownValue := by
  intro m
  obtain ⟨hfour, hsix, htwenty⟩ := crcFrom_headerFlip
  refine ⟨fun h => ?_, fun h => ?_, fun h => ?_⟩ <;> rw [crcOf_modify_xor m (by omega), h]
  · rw [hfour]
  · rw [hsix]
  · rw [htwenty]

/-! The residue (rule R81 (c)). -/

/-- A byte equal to the register's high byte cancels it, and the low byte moves up. -/
theorem crcUpdate_hi (c : Word) : crcUpdate (hi c) c = (lo c).setWidth 16 <<< 8 := by
  have hcancel : c ^^^ ((hi c).setWidth 16 <<< 8) = (lo c).setWidth 16 := by
    apply BitVec.eq_of_getLsbD_eq
    grind [hi, lo]
  rw [crcUpdate_eq_byteWise, byteWiseUpdate, hcancel, byteWiseStep_iterate_byte _ (by decide)]

theorem crcUpdate_cancel (b : Byte) : crcUpdate b (b.setWidth 16 <<< 8) = 0x0000#16 := by
  rw [crcUpdate_eq_byteWise, byteWiseUpdate, BitVec.xor_self]
  decide

/-- Settles O21: each checksum byte cancels the register's high byte. -/
theorem crcResidueIsZero : Obligations.CrcResidueIsZero := by
  intro m
  simp only [crcOf_append_eq_crcFrom, crcFrom_cons, crcFrom_nil, crcUpdate_hi, crcUpdate_cancel]

end Sys2Proof.Machine
end

section
/-! PROOFS. The Frame Codec's assembler (spec 41_frame_encode.md): the words `ENCODE` returns, why the
collision rule settles after one toggle, and that `VALIDATE` accepts what `ENCODE` returned. -/

namespace Sys2Proof.Machine

open Sys2Proof.Claims (admits organicBytes)

/-! The payload contract (rule R91). -/

/-- A result and an engine in one update: the engine as a variable, so that no proof computes with it. -/
theorem State.withCrc_respond (s : State) (c : CrcEngine) (r : Result) :
    ({ s with crc := c } : State).respond r = { s with crc := c, result := r } := rfl

theorem exec_encode_of_legal {p : List Byte} (hp : payloadLegal p = true) (dest : Word) (reserve : Byte)
    (s : State) : exec (.encode dest reserve p) s =
      .next { s with
        crc := encodeEngine s.crc dest reserve p, result := .frame (encodeFrame dest reserve p) } :=
  (if_pos hp).trans (congrArg _ (s.withCrc_respond _ _))

theorem exec_encode_of_illegal {p : List Byte} (hp : ¬ payloadLegal p = true) (dest : Word)
    (reserve : Byte) (s : State) :
    exec (.encode dest reserve p) s = .fault (.contractViolation p.length) :=
  if_neg hp

/-- The gate test comes before the payload's (45_session_ops.md rules R131 to R133). -/
theorem exec_send_of_illegal {s : State} {p : List Byte} (hb : s.busy = false)
    (hp : ¬ payloadLegal p = true) (sel : Dest) :
    exec (.send sel p) s = .fault (.contractViolation p.length) := by
  have hgate : ¬ s.busy = true := by simp [hb]
  exact (if_neg hgate).trans (if_neg hp)

/-- Settles O25: such a length breaks one of the two conditions of the payload contract. -/
theorem encodeOfABadLengthFaults : Obligations.EncodeOfABadLengthFaults := by
  intro s dest reserve p hbad
  have hp : ¬ payloadLegal p = true := by rw [payloadLegal_iff]; omega
  exact ⟨exec_encode_of_illegal hp dest reserve s, fun sel hb => exec_send_of_illegal hb hp sel⟩

/-! The header's toggle (rules R88, R89). -/

/-- The toggle is in the high byte of the header. -/
theorem hi_xor_flipMask (h : Word) : hi (h ^^^ Config.flipMask) = hi h ^^^ 0x80#8 :=
  BitVec.extractLsb'_xor

/-- The toggle leaves the length byte (rule R86). -/
theorem lo_xor_flipMask (h : Word) : lo (h ^^^ Config.flipMask) = lo h := by
  rw [lo, BitVec.extractLsb'_xor]
  exact BitVec.xor_zero

theorem checkedBytes_xor_flipMask (dest header : Word) (p : List Byte) :
    checkedBytes dest (header ^^^ Config.flipMask) p =
      (checkedBytes dest header p).modify 2 (· ^^^ (1#8 <<< 7)) := by
  simp only [checkedBytes, wordsToBytes_cons, hi_xor_flipMask, lo_xor_flipMask]
  rfl

/-- The toggle is a single flipped bit of the checked bytes, so it changes the checksum (rule R89; 40_crc.md
rule R81 (b)). -/
theorem frameChecksum_xor_flipMask_ne (dest header : Word) (p : List Byte) :
    frameChecksum dest p (header ^^^ Config.flipMask) ≠ frameChecksum dest p header := by
  rw [frameChecksum, checkedBytes_xor_flipMask]
  exact singleBitFlipChangesTheCrc (checkedBytes dest header p) 2 7 (by simp [checkedBytes]) (by decide)

/-- The first pass toggles when the checksum is the terminator; the second never does (rule R89). -/
theorem settledHeader_eq (dest : Word) (reserve : Byte) (p : List Byte) :
    settledHeader dest reserve p =
      if frameChecksum dest p (headerWord reserve p.length) = 0xFFFF#16
      then headerWord reserve p.length ^^^ Config.flipMask else headerWord reserve p.length := by
  simp only [settledHeader, settleHeader]
  by_cases hc : frameChecksum dest p (headerWord reserve p.length) = 0xFFFF#16
  · have hsecond := frameChecksum_xor_flipMask_ne dest (headerWord reserve p.length) p
    rw [hc] at hsecond
    rw [if_pos hc, if_pos hc, if_neg hsecond]
  · rw [if_neg hc, if_neg hc]

theorem frameChecksum_settledHeader_ne (dest : Word) (reserve : Byte) (p : List Byte) :
    frameChecksum dest p (settledHeader dest reserve p) ≠ 0xFFFF#16 := by
  rw [settledHeader_eq]
  split
  case isTrue hc => exact hc ▸ frameChecksum_xor_flipMask_ne dest (headerWord reserve p.length) p
  case isFalse hc => exact hc

/-- The transmitted header declares the payload's length, toggled or not (rules R86, R92 (b)). -/
theorem lo_settledHeader (dest : Word) (reserve : Byte) (p : List Byte) :
    lo (settledHeader dest reserve p) = BitVec.ofNat 8 p.length := by
  rw [settledHeader_eq]
  split
  · rw [lo_xor_flipMask, headerWord, lo_cat]
  · rw [headerWord, lo_cat]

/-! The words of the frame (rules R87, R90). -/

/-- Payload word `k` carries bytes `2 k` and `2 k + 1`, the first one high (rule R87). -/
theorem wordsOfBytes_getElem? : ∀ (p : List Byte) (k : Nat), k < p.length / 2 →
    (wordsOfBytes p)[k]? = some (cat (p.getD (2 * k) 0) (p.getD (2 * k + 1) 0))
  | [], _, hk => by simp at hk
  | [_], _, hk => by simp at hk
  | _ :: _ :: _, 0, _ => rfl
  | _ :: _ :: rest, k + 1, hk =>
    wordsOfBytes_getElem? rest k (by simp only [List.length_cons] at hk; omega)

/-- Settles O23: the payload words are those of the bytes, and the header is the settled one. -/
theorem encodeBuildsTheFrame : Obligations.EncodeBuildsTheFrame := by
  intro s dest reserve p hp
  exact ⟨encodeEngine s.crc dest reserve p, settledHeader dest reserve p, wordsOfBytes p,
    exec_encode_of_legal ((payloadLegal_iff p).2 hp) dest reserve s, wordsOfBytes_length p,
    wordsOfBytes_getElem? p, settledHeader_eq dest reserve p⟩

/-- Word `2 + L/2` of a frame is the checksum of its settled header (rule R90). -/
theorem encodeFrame_getElem?_checksum (dest : Word) (reserve : Byte) (p : List Byte) :
    (encodeFrame dest reserve p)[p.length / 2 + 2]? =
      some (frameChecksum dest p (settledHeader dest reserve p)) := by
  simp [encodeFrame]

/-- Settles O24: the checksum word is that of a settled header. -/
theorem checksumIsNeverTheSentinel : Obligations.ChecksumIsNeverTheSentinel := by
  intro s t dest reserve p ws hexec hframe
  obtain ⟨-, rfl⟩ := execEncode_next hexec
  obtain rfl : encodeFrame dest reserve p = ws := Result.frame.inj hframe
  exact ⟨encodeFrame_length dest reserve p, _, encodeFrame_getElem?_checksum dest reserve p,
    frameChecksum_settledHeader_ne dest reserve p⟩

/-! A received frame that is whole (44_frame_validate.md rules R118 to R122). -/

theorem fillTo_of_length_le {α : Type} {n : Nat} {xs : List α} (h : xs.length ≤ n) (fill : α) :
    fillTo n fill xs = xs ++ List.replicate (n - xs.length) fill := by
  rw [fillTo, List.take_of_length_le h]

/-- The first `n` elements of the unstuffed array, one by one. -/
theorem map_byteAt_range {r : List Byte} {n : Nat} (h : n ≤ r.length) :
    (List.range n).map (byteAt r) = r.take n := by
  apply List.ext_getElem
  · simp [h]
  · intro k hk _
    have hkr : k < r.length := by simp at hk; omega
    simp [byteAt, hkr]

/-- A frame whose address passes and whose declared length is its payload's is judged by its checksum
alone. -/
theorem validateFrame_whole {self bc dest header : Word} {p : List Byte} (hadm : admits self bc dest)
    (hlen : (lo header).toNat = p.length) (hp : p.length ≤ 16) (c : Word) (tail : List Byte) :
    validateFrame self bc (wordsToBytes [dest, header] ++ p ++ wordBytes c ++ tail) =
      if crcOf (wordsToBytes [dest, header] ++ p) = c then .accept else .checksumMismatch := by
  let r := wordsToBytes [dest, header] ++ p ++ wordBytes c ++ tail
  have haddr : addressPasses self bc r = true := by simpa [addressPasses, byteAt, r] using hadm
  have hdecl : declaredLength r = p.length := hlen
  have hlegal : lengthPasses r = true := by simpa [lengthPasses, hdecl] using hp
  have hbytes : validatedBytes r = wordsToBytes [dest, header] ++ p := by
    rw [validatedBytes, hdecl, map_byteAt_range (by simp [r])]
    simp [r]
  have hsum : receivedChecksum r = c := by
    rw [receivedChecksum, hdecl]
    simp [byteAt, r, wordBytes]
  show validateFrame self bc r = _
  rw [validateFrame, haddr, hlegal, hbytes, hsum]
  rfl

/-- A frame before its terminator: the bytes the checksum covers, and the checksum. -/
theorem organicBytes_encodeFrame (dest : Word) (reserve : Byte) (p : List Byte) :
    organicBytes (encodeFrame dest reserve p) =
      checkedBytes dest (settledHeader dest reserve p) p ++
        wordBytes (frameChecksum dest p (settledHeader dest reserve p)) := by
  have hconcat : encodeFrame dest reserve p =
      (dest :: settledHeader dest reserve p :: wordsOfBytes p ++
        [frameChecksum dest p (settledHeader dest reserve p)]) ++ [Config.termWord] := by
    simp [encodeFrame]
  rw [organicBytes, hconcat, List.dropLast_concat]
  simp [checkedBytes, wordBytes]

theorem organicBytes_encodeFrame_length (dest : Word) (reserve : Byte) (p : List Byte) :
    (organicBytes (encodeFrame dest reserve p)).length = 2 * (p.length / 2 + 3) := by
  simp [organicBytes]

theorem checkedBytes_of_even {p : List Byte} (hp : p.length % 2 = 0) (dest header : Word) :
    checkedBytes dest header p = wordsToBytes [dest, header] ++ p := by
  rw [checkedBytes, wordsToBytes_cons, wordsToBytes_cons, wordsToBytes_wordsOfBytes p hp]
  rfl

/-- Settles O28: the declared length is the payload's, and the checksum that arrives is the one that
`VALIDATE` recomputes. -/
theorem encodedFramesAreAccepted : Obligations.EncodedFramesAreAccepted := by
  intro s self bc dest reserve p ⟨heven, hmax⟩ hadm
  refine ⟨_, rfl, congrArg Result.verdict ?_⟩
  let header := settledHeader dest reserve p
  have hframe : organicBytes (encodeFrame dest reserve p) =
      wordsToBytes [dest, header] ++ p ++ wordBytes (crcOf (wordsToBytes [dest, header] ++ p)) := by
    rw [organicBytes_encodeFrame, frameChecksum, checkedBytes_of_even heven]
  have hfit : (organicBytes (encodeFrame dest reserve p)).length ≤ Config.maxStuffedPacketLenBytes := by
    rw [organicBytes_encodeFrame_length, Config.maxStuffedPacketLenBytes_eq]; omega
  have hlen : (lo header).toNat = p.length := by
    rw [lo_settledHeader, BitVec.toNat_ofNat]; omega
  rw [validateOperand, fillTo_of_length_le hfit, hframe, validateFrame_whole hadm hlen hmax, if_pos rfl]

end Sys2Proof.Machine
end

section
/-! PROOFS. The Bit Stuffer (spec 42_bit_stuffer.md): what `STUFF` and `UNSTUFF` read of their input
(rule R100; 43_bit_unstuffer.md rule R110), and the form and size of what `STUFF` returns (rules R101 to
R103). -/

namespace Sys2Proof.Machine

/-- Settles O33, by the run-length property of the stuffed data region. -/
theorem fiveEqualBitsAreFollowedByTheComplement : Obligations.FiveEqualBitsAreFollowedByTheComplement :=
  fun _ _ _ _ => stuffedRegion_complement

/-! What `STUFF` returns (rule R101). -/

/-- A result and a stuffer in one update: the stuffer as a variable, so that no proof computes with it. -/
theorem State.withStuffer_respond (s : State) (c : Stuffer) (r : Result) :
    ({ s with stuffer := c } : State).respond r = { s with stuffer := c, result := r } := rfl

theorem exec_stuff (ws : List Word) (s : State) : exec (.stuff ws) s =
    .next { s with
      stuffer := stufferAfter (stuffOperand ws)
      result := .stuffed (stuffWords (stuffOperand ws)) (stuffWords (stuffOperand ws)).length } :=
  congrArg _ (s.withStuffer_respond _ _)

theorem padLength_lt (n : Nat) : padLength n < 16 := Nat.mod_lt _ (by decide)

/-- Settles O31: the words before the terminator hold region and pad. -/
theorem stuffPadsToAWordAndTerminates : Obligations.StuffPadsToAWordAndTerminates := by
  intro s ws
  obtain ⟨body, hwords, hbits⟩ := exists_stuffWords_body (stuffOperand ws)
  refine ⟨stufferAfter (stuffOperand ws), body, _, ?_, padLength_lt _, hbits⟩
  rw [exec_stuff, hwords, List.length_append, List.length_singleton]

/-! What is read (rules R99, R100; 43_bit_unstuffer.md rule R110). -/

/-- A scan limited to `n` elements does not reach beyond an element that `p` refuses. -/
theorem takeWhile_take_append_stop {α : Type} {p : α → Bool} {stop : α} (hstop : p stop = false)
    (n : Nat) (xs ys : List α) :
    ((xs ++ stop :: ys).take n).takeWhile p = (xs.take n).takeWhile p := by
  induction xs generalizing n with
  | nil => cases n <;> simp [hstop]
  | cons x xs ih => cases n <;> simp [List.takeWhile_cons, ih]

/-- An input array is the beginning of the list and its fill. -/
theorem fillTo_eq_take {α : Type} (n : Nat) (fill : α) (xs : List α) :
    fillTo n fill xs = (xs ++ List.replicate n fill).take n := by
  rw [fillTo, List.take_append, List.take_replicate, Nat.min_eq_left (Nat.sub_le _ _)]

theorem takeWhile_take_fillTo {α : Type} {p : α → Bool} {stop : α} (hstop : p stop = false)
    (n : Nat) (xs ys : List α) :
    ((fillTo n stop (xs ++ stop :: ys)).take n).takeWhile p = (xs.take n).takeWhile p := by
  rw [fillTo_eq_take, List.take_take, Nat.min_self, List.append_assoc, List.cons_append,
    takeWhile_take_append_stop hstop]

theorem scannedWords_stuffOperand (xs ys : List Word) :
    scannedWords (stuffOperand (xs ++ 0xFFFF#16 :: ys)) = scannedWords xs :=
  takeWhile_take_fillTo (by decide) Config.maxPacketLenWords xs ys

theorem scannedBytes_unstuffOperand (xs ys : List Byte) :
    scannedBytes (unstuffOperand (xs ++ 0xFF#8 :: ys)) = scannedBytes xs :=
  takeWhile_take_fillTo (by decide) Config.maxStuffedPacketLenBytes xs ys

/-- `STUFF` reads its input through the scanned words alone. -/
theorem exec_stuff_congr {ws vs : List Word}
    (h : scannedWords (stuffOperand ws) = scannedWords (stuffOperand vs)) (s : State) :
    exec (.stuff ws) s = exec (.stuff vs) s := by
  have hstuffer : stufferAfter (stuffOperand ws) = stufferAfter (stuffOperand vs) := by
    simp only [stufferAfter, paddedRegion, stuffedRegion, h]
  have hwords : stuffWords (stuffOperand ws) = stuffWords (stuffOperand vs) := by
    simp only [stuffWords, stuffFrom, paddedRegion, stuffedRegion, h]
  rw [exec_stuff, exec_stuff, hstuffer, hwords]

/-- `UNSTUFF` reads its input through the scanned bytes alone. -/
theorem exec_unstuff_congr {bs cs : List Byte}
    (h : scannedBytes (unstuffOperand bs) = scannedBytes (unstuffOperand cs)) (s : State) :
    exec (.unstuff bs) s = exec (.unstuff cs) s := by
  have hscan : unstuffScan (unstuffOperand bs) = unstuffScan (unstuffOperand cs) := by
    simp only [unstuffScan, h]
  show execUnstuff bs s = execUnstuff cs s
  simp only [execUnstuff, unstufferAfter, unstuffBytes, unstuffCount, unstuffedBits, hscan, h]

/-- Settles O35: lists that agree up to a sentinel are scanned to the same words or bytes. -/
theorem nothingBehindTheSentinelIsRead : Obligations.NothingBehindTheSentinelIsRead := by
  refine fun s => ⟨fun xs ys zs => ?stuff, fun xs ys zs => ?unstuff⟩
  case stuff =>
    exact exec_stuff_congr (by rw [scannedWords_stuffOperand, scannedWords_stuffOperand]) s
  case unstuff =>
    exact exec_unstuff_congr (by rw [scannedBytes_unstuffOperand, scannedBytes_unstuffOperand]) s

/-! Sizes (rule R102). -/

/-- The first bit belongs to no earlier run, so it pays for no stuff bit (rule R96). -/
theorem stuffBits_start_cons (b : Bool) (bits : List Bool) :
    (stuffBits (Run.start none) (b :: bits)).1 =
      b :: (stuffBits ((Run.start none).see b) bits).1 := rfl

/-- Every four bits behind the first one pay for at most one stuff bit. -/
theorem stuffBits_start_length (bits : List Bool) :
    bits.length ≤ (stuffBits (Run.start none) bits).1.length ∧
    4 * (stuffBits (Run.start none) bits).1.length ≤ 5 * bits.length - 1 := by
  cases bits with
  | nil => exact ⟨le_refl _, le_refl _⟩
  | cons b bits =>
    have hlen : ((Run.start none).see b).len = 1 := rfl
    obtain ⟨hlo, hhi, hrun, -⟩ := stuffBits_spec ((Run.start none).see b) bits (by rw [hlen]; decide)
    rw [stuffBits_start_cons, List.length_cons, List.length_cons]
    omega

theorem stuffedRegion_length (u : List Word) :
    16 * (scannedWords u).length ≤ (stuffedRegion none u).length ∧
    4 * (stuffedRegion none u).length ≤ 5 * (16 * (scannedWords u).length) - 1 := by
  rw [← dataBits_length]
  exact stuffBits_start_length _

/-- The words of the region, rounded up, and the terminator (rule R101). -/
theorem stuffWords_length_eq (u : List Word) :
    (stuffWords u).length = ((stuffedRegion none u).length + 15) / 16 + 1 := by
  simp only [stuffWords, stuffFrom, Config.stuffInitLast, paddedRegion, padLength, List.length_append,
    packWords_length, List.length_replicate, List.length_singleton]
  omega

/-- A sentinel ends the scan, whatever stands behind it (rule R99). -/
theorem scannedWords_append_sentinel (xs ys : List Word) :
    scannedWords (xs ++ 0xFFFF#16 :: ys) = scannedWords xs :=
  takeWhile_take_append_stop (by decide) Config.maxPacketLenWords xs ys

/-- The scan of a frame stops at its terminator at the latest (rule R99; 41_frame_encode.md rule R90). -/
theorem scannedWords_encodeFrame_length (dest : Word) (reserve : Byte) (p : List Byte) :
    (scannedWords (encodeFrame dest reserve p)).length ≤ p.length / 2 + 3 := by
  let organic := (encodeFrame dest reserve p).dropLast
  have hlen : organic.length = p.length / 2 + 3 := by simp [organic]
  have hscanned : scannedWords organic <+: organic :=
    (List.takeWhile_prefix _).trans (List.take_prefix _ _)
  rw [encodeFrame_dropLast, scannedWords_append_sentinel, ← hlen]
  exact hscanned.length_le

/-- `00000 1111 0000 1111 ...` takes a stuff bit at the fifth bit and at every fourth bit after it. -/
theorem stuffedRegion_longest :
    (stuffedRegion none (0x0787#16 :: List.replicate 11 0x8787#16)).length = 239 := by decide +kernel

/-- Settles O32, by the number of data bits and the words they fill. -/
theorem stuffedSizeIsBounded : Obligations.StuffedSizeIsBounded := by
  refine ⟨fun u _ => ?anyArray, stuffedRegion_longest, fun dest reserve p hp => ?encoded⟩
  case anyArray =>
    have hscan := scannedWords_length u
    obtain ⟨hlo, hhi⟩ := stuffedRegion_length u
    have hwords := stuffWords_length_eq u
    omega
  case encoded =>
    have hscan := scannedWords_encodeFrame_length dest reserve p
    obtain ⟨-, hmax⟩ := hp
    obtain ⟨-, hhi⟩ := stuffedRegion_length (encodeFrame dest reserve p)
    have hwords := stuffWords_length_eq (encodeFrame dest reserve p)
    omega

end Sys2Proof.Machine
end

section
/-! PROOFS. The Bit Unstuffer (spec 43_bit_unstuffer.md): it undoes the Bit Stuffer bit by bit (rules R108,
R109), answers every input with 36 bytes (rules R105, R112), and gives back what was stuffed (rules R111,
R113). -/

namespace Sys2Proof.Machine

open Sys2Proof.Claims (organicBytes)

/-! The mirror (rules R108, R109; 42_bit_stuffer.md rules R97, R98). -/

/-- The unstuffer's registers carry over from the first part of a stream to the second. -/
theorem unstuffBits_append (u : SkipRun) (xs ys : List Bool) :
    unstuffBits u (xs ++ ys) =
      ((unstuffBits u xs).1 ++ (unstuffBits (unstuffBits u xs).2 ys).1,
        (unstuffBits (unstuffBits u xs).2 ys).2) := by
  induction xs generalizing u with
  | nil => rfl
  | cons x xs ih => simp [unstuffBits, ih]

/-- What one data bit becomes is read back as that bit, and leaves the stuffer's run with no discard
pending: after a fifth bit the discarded bit is the inserted one. -/
theorem unstuffBits_stuffBit (r : Run) (b : Bool) :
    unstuffBits { run := r, skip := false } (stuffBit r b).1 =
      ([b], { run := (stuffBit r b).2, skip := false }) := by
  by_cases h5 : (r.see b).len = 5
  · simp [stuffBit, unstuffBits, unstuffBit, h5]
  · simp [stuffBit, unstuffBits, unstuffBit, h5]

theorem unstuffBits_stuffBits (r : Run) (bits : List Bool) :
    unstuffBits { run := r, skip := false } (stuffBits r bits).1 =
      (bits, { run := (stuffBits r bits).2, skip := false }) := by
  induction bits generalizing r with
  | nil => rfl
  | cons b bits ih =>
    have hcons : stuffBits r (b :: bits) =
        ((stuffBit r b).1 ++ (stuffBits (stuffBit r b).2 bits).1,
          (stuffBits (stuffBit r b).2 bits).2) := rfl
    rw [hcons, unstuffBits_append, unstuffBits_stuffBit, ih]
    rfl

/-- Settles O36: stuffer and unstuffer start from the same run. -/
theorem unstuffingMirrorsStuffing : Obligations.UnstuffingMirrorsStuffing :=
  fun initLast bits => congrArg Prod.fst (unstuffBits_stuffBits (Run.start initLast) bits)

/-! What `UNSTUFF` returns (rules R105, R110, R112). -/

/-- A sentinel ends the scan, whatever stands behind it (rule R110). -/
theorem scannedBytes_append_sentinel (xs ys : List Byte) :
    scannedBytes (xs ++ 0xFF#8 :: ys) = scannedBytes xs :=
  takeWhile_take_append_stop (by decide) Config.maxStuffedPacketLenBytes xs ys

/-- The fill of a short operand list is a sentinel, so it is not scanned. -/
theorem scannedBytes_unstuffOperand_eq (bs : List Byte) :
    scannedBytes (unstuffOperand bs) = scannedBytes bs := by
  rw [unstuffOperand, scannedBytes, fillTo_eq_take, List.take_take, Nat.min_self]
  exact scannedBytes_append_sentinel bs (List.replicate 35 0xFF#8)

theorem unstuffedBits_unstuffOperand (bs : List Byte) :
    unstuffedBits (unstuffOperand bs) = unstuffedBits bs := by
  rw [unstuffedBits, unstuffScan, scannedBytes_unstuffOperand_eq]
  rfl

/-- A result and an unstuffer in one update: the unstuffer as a variable, so that no proof computes with
it. -/
theorem State.withUnstuffer_respond (s : State) (c : Unstuffer) (r : Result) :
    ({ s with unstuffer := c } : State).respond r = { s with unstuffer := c, result := r } := rfl

theorem exec_unstuff (bs : List Byte) (s : State) : exec (.unstuff bs) s =
    .next { s with
      unstuffer := unstufferAfter (unstuffOperand bs)
      result := .unstuffed (unstuffBytes bs) (unstuffCount bs) } := by
  have hbytes : unstuffBytes (unstuffOperand bs) = unstuffBytes bs := by
    rw [unstuffBytes, unstuffedBits_unstuffOperand, unstuffBytes]
  have hcount : unstuffCount (unstuffOperand bs) = unstuffCount bs := by
    rw [unstuffCount, unstuffedBits_unstuffOperand, unstuffCount]
  rw [← hbytes, ← hcount]
  exact congrArg _ (s.withUnstuffer_respond _ _)

theorem unstuffedBits_length_le (bs : List Byte) : (unstuffedBits bs).length ≤ 288 := by
  obtain ⟨-, -, -, -, hcount⟩ := unstufferAfter_ranges bs
  exact hcount

/-- The bits of `R`: what was emitted, and zeros (rule R107). -/
theorem unstuffBytes_bits (bs : List Byte) :
    (unstuffBytes bs).flatMap byteBits =
      unstuffedBits bs ++ List.replicate (288 - (unstuffedBits bs).length) false :=
  packBytes_bits 36 _ (unstuffedBits_length_le bs)

/-- Settles O37: the fill of the operand is not scanned, and 288 bits fit 36 bytes. -/
theorem unstuffIsTotalAndZeroFilled : Obligations.UnstuffIsTotalAndZeroFilled :=
  fun s bs => ⟨_, unstuffBytes bs, unstuffedBits bs, exec_unstuff bs s, rfl,
    unstuffedBits_length_le bs, unstuffBytes_length bs, unstuffBytes_bits bs⟩

/-! The round trip (rules R111, R113). -/

/-- A bit is emitted as it came in or discarded (rule R109). -/
theorem unstuffBits_sublist (u : SkipRun) (bits : List Bool) :
    (unstuffBits u bits).1.Sublist bits := by
  induction bits generalizing u with
  | nil => exact List.Sublist.slnil
  | cons b bits ih =>
    have hbit : (unstuffBit u b).1.Sublist [b] := by
      unfold unstuffBit
      split
      · exact List.nil_sublist _
      · split <;> exact List.Sublist.refl _
    exact hbit.append (ih _)

/-- Region and pad read back: the data bits, and a zero for each pad bit that is not discarded
(rule R111). -/
theorem unstuffBits_paddedRegion (initLast : Option Bool) (u : List Word) : ∃ pad ≤ 15,
    (unstuffBits (SkipRun.start initLast) (paddedRegion initLast u)).1 =
      dataBits (scannedWords u) ++ List.replicate pad false := by
  have hzeros := unstuffBits_sublist
    { run := (stuffBits (Run.start initLast) (dataBits (scannedWords u))).2, skip := false }
    (List.replicate (padLength (stuffedRegion initLast u).length) false)
  obtain ⟨pad, hpad, hout⟩ := List.sublist_replicate_iff.mp hzeros
  have hlt := padLength_lt (stuffedRegion initLast u).length
  refine ⟨pad, by omega, ?_⟩
  rw [← hout]
  dsimp only [paddedRegion, SkipRun.start]
  rw [unstuffBits_append, stuffedRegion, unstuffBits_stuffBits]

/-- A scan takes all of a list within its limit that holds no sentinel. -/
theorem takeWhile_take_eq_self {α : Type} {p : α → Bool} {n : Nat} {xs : List α} (hlen : xs.length ≤ n)
    (hp : ∀ x ∈ xs, p x = true) : (xs.take n).takeWhile p = xs := by
  rw [List.take_of_length_le hlen, List.takeWhile_eq_self_iff.mpr hp]

/-- What is scanned of a stuffed array at the head of the receive buffer is region and pad, whatever
stands behind it (rule R110; 30_encoding.md rule R62). -/
theorem scannedBytes_stuffWords_bits (u : List Word) (tail : List Byte) :
    (scannedBytes (wordsToBytes (stuffWords u) ++ tail)).flatMap byteBits =
      paddedRegion Config.stuffInitLast u := by
  obtain ⟨body, hbody, -, hff⟩ := noSentinelByteBeforeTheTerminator u
  obtain ⟨ws, hws, hbits⟩ := exists_stuffWords_body u
  have hwords : wordsToBytes ws = body := by
    rw [hws, wordsToBytes_append] at hbody
    exact List.append_cancel_right (bs := [0xFF#8, 0xFF#8]) hbody
  rw [← wordsToBytes_bits, hwords] at hbits
  have hlen : body.length ≤ Config.maxStuffedPacketLenBytes := by
    have h240 := (paddedRegion_length u).2
    rw [← hbits, flatMap_byteBits_length] at h240
    rw [Config.maxStuffedPacketLenBytes_eq]
    omega
  have hscan : scannedBytes (wordsToBytes (stuffWords u) ++ tail) = body := by
    rw [hbody, List.append_assoc]
    exact (scannedBytes_append_sentinel body _).trans
      (takeWhile_take_eq_self hlen (by simpa using hff))
  rw [hscan, hbits]

theorem unstuffedBits_stuffWords (u : List Word) (tail : List Byte) : ∃ pad ≤ 15,
    unstuffedBits (wordsToBytes (stuffWords u) ++ tail) =
      dataBits (scannedWords u) ++ List.replicate pad false := by
  rw [unstuffedBits, unstuffScan, scannedBytes_stuffWords_bits]
  exact unstuffBits_paddedRegion Config.stuffInitLast u

theorem byteBits_injective : Function.Injective byteBits := by
  intro a b h
  apply BitVec.eq_of_getMsbD_eq
  intro i hi
  simpa [byteBits, hi] using congrArg (·[i]?) h

/-- Bytes are told apart by their bits. -/
theorem flatMap_byteBits_injective : Function.Injective (List.flatMap byteBits) := by
  intro xs
  induction xs with
  | nil =>
    intro ys h
    have hlen := congrArg List.length h
    rw [flatMap_byteBits_length, flatMap_byteBits_length, List.length_nil] at hlen
    exact (List.length_eq_zero_iff.mp (by omega)).symm
  | cons x xs ih =>
    intro ys h
    cases ys with
    | nil => simpa using congrArg List.length h
    | cons y ys =>
      obtain ⟨hhead, htail⟩ := List.append_inj h (by simp)
      rw [byteBits_injective hhead, ih htail]

theorem flatMap_byteBits_zeros (n : Nat) :
    (List.replicate n 0x00#8).flatMap byteBits = List.replicate (8 * n) false := by
  rw [List.flatMap_replicate, show byteBits 0x00#8 = List.replicate 8 false by decide,
    List.flatten_replicate_replicate, Nat.mul_comm]

/-- Whatever was stuffed comes back: the bytes of the scanned words, and zeros (rule R113). -/
theorem unstuffBytes_stuffWords (u : List Word) (tail : List Byte) :
    unstuffBytes (wordsToBytes (stuffWords u) ++ tail) =
      wordsToBytes (scannedWords u) ++
        List.replicate (36 - 2 * (scannedWords u).length) 0x00#8 := by
  obtain ⟨pad, hpad, hbits⟩ := unstuffedBits_stuffWords u tail
  have hscan := scannedWords_length u
  apply flatMap_byteBits_injective
  rw [unstuffBytes_bits, hbits, List.flatMap_append, wordsToBytes_bits, flatMap_byteBits_zeros,
    List.append_assoc, List.replicate_append_replicate, List.length_append, dataBits_length,
    List.length_replicate, dataBits]
  congr 2
  omega

theorem unstuffCount_stuffWords (u : List Word) (tail : List Byte) :
    16 * (scannedWords u).length ≤ unstuffCount (wordsToBytes (stuffWords u) ++ tail) ∧
    unstuffCount (wordsToBytes (stuffWords u) ++ tail) ≤ 16 * (scannedWords u).length + 15 := by
  obtain ⟨pad, hpad, hbits⟩ := unstuffedBits_stuffWords u tail
  rw [unstuffCount, hbits, List.length_append, dataBits_length, List.length_replicate]
  omega

/-- A legal frame with no organic `0xFFFF` word is scanned up to its terminator
(42_bit_stuffer.md rule R99). -/
theorem scannedWords_encodeFrame {dest : Word} {reserve : Byte} {p : List Byte} (hp : p.length ≤ 16)
    (hff : ∀ w ∈ (encodeFrame dest reserve p).dropLast, w ≠ 0xFFFF#16) :
    scannedWords (encodeFrame dest reserve p) = (encodeFrame dest reserve p).dropLast := by
  have hlen : (encodeFrame dest reserve p).dropLast.length ≤ Config.maxPacketLenWords := by
    rw [List.length_dropLast, encodeFrame_length, Config.maxPacketLenWords_eq]
    omega
  rw [encodeFrame_dropLast, scannedWords_append_sentinel, ← encodeFrame_dropLast]
  exact takeWhile_take_eq_self hlen (by simpa using hff)

/-- Settles O38: the round trip of whatever was stuffed, for a frame that is scanned whole. -/
theorem unstuffOfStuffOfEncodeIsTheFrame : Obligations.UnstuffOfStuffOfEncodeIsTheFrame := by
  intro s dest reserve p tail ⟨heven, hmax⟩ hff
  have hscan := scannedWords_encodeFrame hmax hff
  have hlen : 2 * (scannedWords (encodeFrame dest reserve p)).length = p.length + 6 := by
    rw [hscan, List.length_dropLast, encodeFrame_length]; omega
  obtain ⟨hlo, hhi⟩ := unstuffCount_stuffWords (encodeFrame dest reserve p) tail
  refine ⟨_, _, exec_unstuff _ s, congrArg (Result.unstuffed · _) ?_, by omega, by omega⟩
  rw [unstuffBytes_stuffWords, hlen, hscan, organicBytes]

end Sys2Proof.Machine
end

section
/-! PROOFS. The Frame Codec's validator (spec 44_frame_validate.md): the verdict of every operand, which
addresses pass, and what one flipped payload bit and the buffer of an empty decode are answered. -/

namespace Sys2Proof.Machine

open Sys2Proof.Claims (admits organicBytes)

/-! `VALIDATE` and its checks (rules R116, R118 to R122). -/

theorem exec_validate (self bc : Word) (bs : List Byte) (s : State) : exec (.validate self bc bs) s =
    .next { s with
      crc := validateEngine s.crc self bc (validateOperand bs)
      result := .verdict (validateFrame self bc (validateOperand bs)) } :=
  congrArg _ (s.withCrc_respond _ _)

theorem validateOperand_length (bs : List Byte) : (validateOperand bs).length = 36 := by
  simp only [validateOperand, fillTo, Config.maxStuffedPacketLenBytes_eq, List.length_append,
    List.length_take, List.length_replicate]
  omega

/-- The received address, high byte first (rule R118). -/
def receivedAddress (r : List Byte) : Word := cat (byteAt r 0) (byteAt r 1)

theorem addressPasses_iff (self bc : Word) (r : List Byte) :
    addressPasses self bc r = true ↔ admits self bc (receivedAddress r) := by
  simp [addressPasses, receivedAddress, admits]

theorem lengthPasses_iff (r : List Byte) : lengthPasses r = true ↔ declaredLength r ≤ 16 :=
  decide_eq_true_iff

/-- The checks as propositions, in their order (rule R122). -/
theorem validateFrame_eq (self bc : Word) (r : List Byte) : validateFrame self bc r =
    if ¬ admits self bc (receivedAddress r) then .invalidAddress
    else if ¬ declaredLength r ≤ 16 then .invalidLength
    else if crcOf (validatedBytes r) = receivedChecksum r then .accept
    else .checksumMismatch := by
  simp only [← addressPasses_iff, ← lengthPasses_iff, Bool.not_eq_true, ← Bool.not_eq_true', validateFrame]

/-- A declared length that passes stays within the array, so the checked bytes are its head (rule R121). -/
theorem validatedBytes_eq_take {r : List Byte} (hr : r.length = 36) (hlen : declaredLength r ≤ 16) :
    validatedBytes r = r.take (declaredLength r + 4) :=
  map_byteAt_range (by omega)

/-- Settles O26: the address check is one test for each byte, and a length that passes bounds the
checked bytes. -/
theorem validateReportsTheFirstFailingCheck : Obligations.ValidateReportsTheFirstFailingCheck := by
  refine fun s self bc bs => ⟨fun hn tail => ?record, _, validateOperand bs, _, exec_validate self bc bs s,
    rfl, ?verdict⟩
  case record =>
    exact (decode_validate_record self bc _).trans
      (decodeCounted_bytes (.validate self bc) (decide_eq_true hn) tail)
  case verdict =>
    have hr := validateOperand_length bs
    generalize validateOperand bs = r at hr ⊢
    change validateFrame self bc r =
      if ¬ (byteAt r 0 = hi self ∨ byteAt r 0 = hi bc) then .invalidAddress
      else if ¬ (byteAt r 1 = lo self ∨ byteAt r 1 = lo bc) then .invalidAddress
      else if 16 < declaredLength r then .invalidLength
      else if crcOf (r.take (declaredLength r + 4)) = receivedChecksum r then .accept
      else .checksumMismatch
    rw [validateFrame_eq, receivedAddress]
    simp only [admits, hi_cat, lo_cat]
    by_cases hhigh : byteAt r 0 = hi self ∨ byteAt r 0 = hi bc
    · by_cases hlow : byteAt r 1 = lo self ∨ byteAt r 1 = lo bc
      · by_cases hlen : declaredLength r ≤ 16
        · simp [hhigh, hlow, hlen, validatedBytes_eq_take hr hlen]
        · simp [hhigh, hlow, not_le.mp hlen]
      · simp [hlow]
    · simp [hhigh]

/-! The address filter (rules R118, R119). -/

/-- Only checks 1 and 2 answer `InvalidAddress` (rule R122). -/
theorem validateFrame_eq_invalidAddress_iff (self bc : Word) (r : List Byte) :
    validateFrame self bc r = .invalidAddress ↔ ¬ admits self bc (receivedAddress r) := by
  rw [validateFrame_eq]
  split
  case isTrue hforeign => exact iff_of_true rfl hforeign
  case isFalse hadm =>
    refine iff_of_false ?_ hadm
    split
    · nofun
    · split <;> nofun

theorem word_eq_iff (v w : Word) : v = w ↔ hi v = hi w ∧ lo v = lo w := by
  refine ⟨fun h => ⟨congrArg hi h, congrArg lo h⟩, fun ⟨hhi, hlo⟩ => ?_⟩
  rw [← cat_hi_lo v, hhi, hlo, cat_hi_lo]

/-- The four words of two accepted high bytes and two accepted low bytes. -/
theorem admits_iff (self bc a : Word) : admits self bc a ↔
    a = self ∨ a = cat (hi self) (lo bc) ∨ a = cat (hi bc) (lo self) ∨ a = bc := by
  simp only [admits, word_eq_iff a, hi_cat, lo_cat]
  tauto

/-- Settles O27: the two mixed words are `3255` and `5534`. -/
theorem fourAddressesPassTheFilter : Obligations.FourAddressesPassTheFilter := by
  intro s t a rest hexec
  cases hexec
  have hreceived : receivedAddress (validateOperand (hi a :: lo a :: rest)) = a := cat_hi_lo a
  have hhighSelf : cat (hi 0x3234#16) (lo 0x5555#16) = 0x3255#16 := by decide
  have hhighBc : cat (hi 0x5555#16) (lo 0x3234#16) = 0x5534#16 := by decide
  change Result.verdict _ ≠ _ ↔ _
  rw [ne_eq, Result.verdict.injEq, validateFrame_eq_invalidAddress_iff, not_not, hreceived, admits_iff,
    hhighSelf, hhighBc]

/-! A damaged payload (rule R123 (a)). -/

theorem modify_append_right {α : Type} (xs ys : List α) (k : Nat) (f : α → α) :
    (xs ++ ys).modify (xs.length + k) f = xs ++ ys.modify k f :=
  List.modifyTailIdx_add _ k xs ys

theorem modify_append_left {α : Type} {xs : List α} (ys : List α) {k : Nat} (hk : k < xs.length)
    (f : α → α) : (xs ++ ys).modify k f = xs.modify k f ++ ys := by
  induction xs generalizing k with
  | nil => simp at hk
  | cons x xs ih => cases k with
    | zero => rfl
    | succ k => simpa using ih (by simpa using hk)

/-- A legal frame before its terminator: address, settled header, payload and their checksum. -/
theorem organicBytes_encodeFrame_of_even {p : List Byte} (heven : p.length % 2 = 0) (dest : Word)
    (reserve : Byte) : organicBytes (encodeFrame dest reserve p) =
      wordsToBytes [dest, settledHeader dest reserve p] ++ p ++
        wordBytes (crcOf (wordsToBytes [dest, settledHeader dest reserve p] ++ p)) := by
  rw [organicBytes_encodeFrame, frameChecksum, checkedBytes_of_even heven]

/-- Settles O29: the flip leaves address, length and received checksum, and changes the checksum that
`VALIDATE` recomputes. -/
theorem flippedPayloadBitIsAMismatch : Obligations.FlippedPayloadBitIsAMismatch := by
  intro s self bc dest reserve p k j ⟨heven, hmax⟩ hadm hk hj
  refine ⟨_, exec_validate self bc _ s, congrArg Result.verdict ?_⟩
  let head := wordsToBytes [dest, settledHeader dest reserve p]
  let flipped := p.modify k (· ^^^ (1#8 <<< j))
  have hin : 4 + k < (head ++ p).length := by simp [head]; omega
  have hcovered : (head ++ p).modify (4 + k) (· ^^^ (1#8 <<< j)) = head ++ flipped :=
    modify_append_right head p k _
  have hframe : (organicBytes (encodeFrame dest reserve p)).modify (4 + k) (· ^^^ (1#8 <<< j)) =
      head ++ flipped ++ wordBytes (crcOf (head ++ p)) := by
    rw [organicBytes_encodeFrame_of_even heven, modify_append_left _ hin, hcovered]
  have hchanged : crcOf (head ++ flipped) ≠ crcOf (head ++ p) :=
    hcovered ▸ singleBitFlipChangesTheCrc (head ++ p) (4 + k) j hin hj
  have hpayload : flipped.length = p.length := List.length_modify ..
  have hfit : (head ++ flipped ++ wordBytes (crcOf (head ++ p))).length ≤
      Config.maxStuffedPacketLenBytes := by
    simp [head, wordBytes, hpayload]; omega
  have hlen : (lo (settledHeader dest reserve p)).toNat = flipped.length := by
    rw [lo_settledHeader, BitVec.toNat_ofNat]; omega
  rw [validateOperand, hframe, fillTo_of_length_le hfit, validateFrame_whole hadm hlen (by omega),
    if_neg hchanged]

/-! The buffer of an empty decode (rule R123 (b)). -/

/-- The checksum of the four zero bytes before a zero checksum. -/
theorem crcOf_zeroHead : crcOf (wordsToBytes [0x0000#16, 0x0000#16]) ≠ 0x0000#16 := by decide +kernel

theorem validateOperand_nil : validateOperand [] =
    wordsToBytes [0x0000#16, 0x0000#16] ++ [] ++ wordBytes 0x0000#16 ++ List.replicate 30 0x00#8 := by
  decide

theorem admits_zero_iff (self bc : Word) :
    admits self bc 0x0000#16 ↔ (hi self = 0 ∨ hi bc = 0) ∧ (lo self = 0 ∨ lo bc = 0) := by
  have hhi : hi 0x0000#16 = 0 := by decide
  have hlo : lo 0x0000#16 = 0 := by decide
  simp only [admits, hhi, hlo, eq_comm]

/-- Settles O30: where the zero address passes, the rest is an empty payload with a wrong checksum. -/
theorem allZeroBufferIsNeverAccepted : Obligations.AllZeroBufferIsNeverAccepted := by
  intro s self bc
  refine ⟨_, exec_validate self bc [] s, congrArg Result.verdict ?_⟩
  simp only [← admits_zero_iff]
  split
  case isTrue hadm =>
    rw [validateOperand_nil, validateFrame_whole hadm rfl (Nat.zero_le _), List.append_nil,
      if_neg crcOf_zeroHead]
  case isFalse hforeign =>
    exact (validateFrame_eq_invalidAddress_iff self bc _).mpr hforeign

end Sys2Proof.Machine
end

section
/-! PROOFS. The session's small operations (spec 45_session_ops.md): `RESET`, the setters, `RD`, the events
that carry no image, the stops of `SEND`; and the transition tables of rules R141 and R142. -/

namespace Sys2Proof.Machine

/-- Settles O1: `RESET` is the power-up state but for the pending inputs, the trace and the epoch. -/
theorem resetTakesTheResetValues : Obligations.ResetTakesTheResetValues :=
  fun _ => ⟨_, rfl, rfl, rfl, rfl, rfl, rfl, rfl, rfl, rfl, rfl, rfl, rfl, rfl, rfl, rfl, rfl, rfl, rfl, rfl⟩

/-- Settles O3: each record is what its setter encodes to, and each meaning is one field and the result. -/
theorem settersWriteTheirRegisterAlone : Obligations.SettersWriteTheirRegisterAlone :=
  fun _ v r tail => ⟨decodeWordOperand_append .cfgSelf v tail, decodeWordOperand_append .cfgPeer v tail,
    decodeWordOperand_append .cfgBcast v tail, decode_cfgReserve (r :: tail), rfl, rfl, rfl, rfl⟩

/-! `RD` (rule R134; 10_state.md rule R18). -/

/-- Bit 1 of `STATUS` is the receive state. -/
theorem State.status_bit1 (s : State) : s.status.getLsbD 1 = decide (s.rxState = .pending) := by
  have h := BitVec.getLsbD_append (x := 0#30 ++ s.rxState.bit) (y := BitVec.ofBool s.busy) (i := 1)
  refine h.trans ?_
  cases s.rxState <;> rfl

/-- The other bits of `STATUS` are 0. -/
theorem State.status_high (s : State) {k : Nat} (hk : 2 ≤ k) : s.status.getLsbD k = false := by
  obtain ⟨n, rfl⟩ := Nat.exists_eq_add_of_le' hk
  have h := BitVec.getLsbD_append (x := 0#30 ++ s.rxState.bit) (y := BitVec.ofBool s.busy) (i := n + 2)
  exact h.trans ((if_neg (by omega)).trans (BitVec.getLsbD_append.trans (by simp)))

/-- A counter has the width that `RD` returns. -/
theorem exec_rd_counter {reg : RegName} {s : State} {c : Counter}
    (h : s.readRegister reg = c.setWidth 32) : exec (.rd reg) s = .next { s with result := .u32 c } := by
  rw [exec_rd, h, BitVec.setWidth_eq]
  rfl

/-- Settles O4: the records by register number, the answers by register, `STATUS` bit by bit. -/
theorem readReturnsTheNamedRegister : Obligations.ReadReturnsTheNamedRegister := by
  intro s
  refine ⟨fun tail => ?records, exec_rd .selfAddr s, exec_rd .peerAddr s, exec_rd .bcastAddr s,
    exec_rd .reserve s, exec_rd_counter rfl, exec_rd_counter rfl, exec_rd_counter rfl, ?status,
    fun _ hreg => decode_rd_reserved hreg⟩
  case records =>
    exact ⟨decode_rd_number .selfAddr tail, decode_rd_number .peerAddr tail,
      decode_rd_number .bcastAddr tail, decode_rd_number .reserve tail, decode_rd_number .status tail,
      decode_rd_number .sent tail, decode_rd_number .received tail, decode_rd_number .missed tail⟩
  case status =>
    exact ⟨s.status, exec_rd .status s, s.status_bit0, s.status_bit1, fun _ => s.status_high⟩

/-! The stops of `SEND` (rules R132, R133), and the two events without an image (rules R135, R136, R139). -/

theorem exec_send_of_busy {s : State} (hb : s.busy = true) (sel : Dest) (p : List Byte) :
    exec (.send sel p) s = .next (s.respond .busy) := if_pos hb

/-- Settles O5: the gate test comes before the payload's. -/
theorem sendWhileBusyReturnsBusy : Obligations.SendWhileBusyReturnsBusy :=
  fun _ sel p hb => exec_send_of_busy hb sel p

/-- Settles O6: such a length breaks one of the two conditions of the payload contract. -/
theorem sendOfABadLengthFaults : Obligations.SendOfABadLengthFaults := by
  intro s sel p hb hbad
  have hp : ¬ payloadLegal p = true := by rw [payloadLegal_iff]; omega
  exact exec_send_of_illegal hb hp sel

/-- Settles O10: the handler's updates are the four fields. -/
theorem transmitCompleteCountsAndClearsTheGate : Obligations.TransmitCompleteCountsAndClearsTheGate :=
  ⟨decode_evTxComplete, fun _ => rfl⟩

/-- Settles O14: the overrun counts nothing, so only the handler's return is left. -/
theorem overrunOnlyRearms : Obligations.OverrunOnlyRearms := ⟨decode_evRxOverrun, execEvRxOverrun_eq⟩

/-! The gate and the receive state behind the two composite operations (rules R141, R142). -/

@[simp] theorem State.sendFrame_busy (s : State) (sel : Dest) (p : List Byte) :
    (s.sendFrame sel p).busy = true := by simp [State.sendFrame]

@[simp] theorem State.receiveImage_rxState (s : State) (img : List Byte) :
    (s.receiveImage img).rxState = .idle := by simp [State.receiveImage]

/-- Settles O50, by the effect of each operation. -/
theorem stateMachineTransitions : Obligations.StateMachineTransitions := by
  intro i s t h
  cases exec_next h with
  | reset => exact ⟨rfl, rfl⟩
  | cfgSelf | cfgPeer | cfgBcast | cfgReserve | rd => exact ⟨rfl, rfl⟩
  | sendBusy _ _ hb => exact ⟨hb, rfl⟩
  | sendOk sel p => exact ⟨s.sendFrame_busy sel p, s.sendFrame_rxState sel p⟩
  | evTxComplete => exact ⟨rfl, rfl⟩
  | evFrameBoundary img => exact ⟨s.receiveImage_busy img, s.receiveImage_rxState img⟩
  | evRxOverrun => exact ⟨rfl, rfl⟩
  | crc16Update | crc16 | encode | stuff | unstuff | validate => exact ⟨rfl, rfl⟩

end Sys2Proof.Machine
end

section
/-! PROOFS. What `SEND` hands over (spec 45_session_ops.md rule R131): the frame in `TXU`, its stuffed form in
`TXS` and in `begin_transmit`. -/

namespace Sys2Proof.Machine

open Sys2Proof.Claims (sentFrame)

theorem exec_send_of_legal {s : State} {p : List Byte} (hb : s.busy = false) (hp : payloadLegal p = true)
    (sel : Dest) : exec (.send sel p) s = .next (s.sendFrame sel p) := by
  have hgate : ¬ s.busy = true := by simp [hb]
  exact (if_neg hgate).trans (if_pos hp)

@[simp] theorem State.sendFrame_result (s : State) (sel : Dest) (p : List Byte) :
    (s.sendFrame sel p).result = .ok := by simp [State.sendFrame]

/-- What is stuffed is the scanned words alone (42_bit_stuffer.md rule R99). -/
theorem stuffWords_congr {u v : List Word} (h : scannedWords u = scannedWords v) :
    stuffWords u = stuffWords v := by
  simp only [stuffWords, stuffFrom, paddedRegion, stuffedRegion, h]

/-- Words behind a frame are not stuffed (42_bit_stuffer.md rule R100). -/
theorem stuffWords_encodeFrame_append (dest : Word) (reserve : Byte) (p : List Byte) (ys : List Word) :
    stuffWords (encodeFrame dest reserve p ++ ys) = stuffWords (encodeFrame dest reserve p) := by
  apply stuffWords_congr
  rw [encodeFrame_dropLast, List.append_assoc, List.singleton_append, scannedWords_append_sentinel,
    scannedWords_append_sentinel]

/-- A legal payload's frame stands at the head of `TXU` (10_state.md rule R25). -/
theorem State.txuWords_encodeIntoTxu_take {p : List Byte} (hp : payloadLegal p = true) (s : State)
    (d : Word) : (s.encodeIntoTxu d p).txuWords.take (p.length / 2 + 4) = encodeFrame d s.reserve p := by
  obtain ⟨-, hmax⟩ := (payloadLegal_iff p).1 hp
  rw [State.txuWords, ← List.map_take, List.take_range, Config.maxPacketLenWords_eq,
    Nat.min_eq_left (by omega), ← encodeFrame_length d s.reserve p]
  exact Buffer.map_lookup_writeFrom s.txu (encodeFrame d s.reserve p) _

/-- What is stuffed of `TXU` is the frame just encoded into it. -/
theorem State.stuffWords_encodeIntoTxu {p : List Byte} (hp : payloadLegal p = true) (s : State)
    (d : Word) : stuffWords (s.encodeIntoTxu d p).txuWords = stuffWords (encodeFrame d s.reserve p) := by
  rw [← List.take_append_drop (p.length / 2 + 4) (s.encodeIntoTxu d p).txuWords,
    State.txuWords_encodeIntoTxu_take hp, stuffWords_encodeFrame_append]

/-! `TXU` and `TXS` after `SEND`: setting the gate, `begin_transmit` and the result write neither. -/

theorem State.txuWords_sendFrame (s : State) (sel : Dest) (p : List Byte) :
    (s.sendFrame sel p).txuWords = (s.encodeIntoTxu (s.destination sel) p).txuWords := by
  rw [State.sendFrame_eq]
  exact List.map_congr_left fun k _ => State.txuRead_congr (by simp) (by simp) k

theorem State.txsWords_sendFrame (s : State) (sel : Dest) (p : List Byte) (m : Nat) :
    (s.sendFrame sel p).txsWords m =
      (s.encodeIntoTxu (s.destination sel) p).stuffIntoTxs.txsWords m := by
  rw [State.sendFrame_eq]
  exact List.map_congr_left fun k _ => State.txsRead_congr (by simp) (by simp) k

theorem State.txsWords_setGate (s : State) (m : Nat) : s.setGate.txsWords m = s.txsWords m := rfl

section
variable {p : List Byte} (hp : payloadLegal p = true) (s : State) (sel : Dest)
include hp

theorem State.txuWords_sendFrame_take :
    (s.sendFrame sel p).txuWords.take (p.length / 2 + 4) = sentFrame s sel p := by
  rw [State.txuWords_sendFrame, State.txuWords_encodeIntoTxu_take hp, encodeFrame_destination]

theorem State.sendFrame_txsLen :
    (s.sendFrame sel p).txsLen = (stuffWords (sentFrame s sel p)).length := by
  rw [State.sendFrame_eq, ← encodeFrame_destination, ← State.stuffWords_encodeIntoTxu hp]
  simp

theorem State.txsWords_sendFrame_txsLen : (s.sendFrame sel p).txsWords (s.sendFrame sel p).txsLen =
    stuffWords (sentFrame s sel p) := by
  have hlen : (s.sendFrame sel p).txsLen =
      (s.encodeIntoTxu (s.destination sel) p).stuffIntoTxs.txsLen := by
    simp [State.sendFrame_eq]
  rw [State.txsWords_sendFrame, hlen, State.txsWords_stuffIntoTxs, State.stuffWords_encodeIntoTxu hp,
    encodeFrame_destination]

/-- `begin_transmit` names what `TXS` holds when `SEND` returns (rule R140). -/
theorem State.sendFrame_trace : (s.sendFrame sel p).trace =
    s.trace ++ [.beginTransmit (stuffWords (sentFrame s sel p)) (s.sendFrame sel p).txsLen] := by
  rw [← State.txsWords_sendFrame_txsLen hp, State.txsWords_sendFrame]
  simp [State.sendFrame_eq, State.txsWords_setGate]

end

/-- Settles O7: what `STUFF` reads of `TXU` ends with the frame just encoded. -/
theorem sendHandsOverTheStuffedFrame : Obligations.SendHandsOverTheStuffedFrame := by
  intro s sel p hb hlegal
  have hp := (payloadLegal_iff p).2 hlegal
  exact ⟨s.sendFrame sel p, exec_send_of_legal hb hp sel, s.sendFrame_busy sel p,
    s.sendFrame_result sel p, s.txuWords_sendFrame_take hp sel, s.sendFrame_txsLen hp sel,
    s.txsWords_sendFrame_txsLen hp sel, s.sendFrame_trace hp sel⟩

end Sys2Proof.Machine
end

section
/-! PROOFS. What a frame boundary makes of an image (spec 45_session_ops.md rules R137, R138), and that a node
accepts what another one sent to it (rule R131; 43_bit_unstuffer.md rule R113). -/

namespace Sys2Proof.Machine

open Sys2Proof.Claims (sentFrame organicBytes admits destinationOf)

/-! The handler, element by element (rules R137, R138). -/

theorem exec_evFrameBoundary (img : List Byte) (s : State) :
    exec (.evFrameBoundary img) s = .next (s.receiveImage img) := execEvFrameBoundary_eq img s

@[simp] theorem State.receiveImage_result (s : State) (img : List Byte) :
    (s.receiveImage img).result = .nothing := by simp [State.receiveImage]

@[simp] theorem State.receiveImage_trace (s : State) (img : List Byte) :
    (s.receiveImage img).trace = s.trace ++ [.rearmReceive] := by simp [State.receiveImage]

/-- `RXU` is what was written over all of it. -/
theorem State.rxuBytes_of_writeFrom {t : State} {b : Buffer Byte} {bs : List Byte}
    (hrxu : t.rxu = Buffer.writeFrom b 0 bs) (hlen : bs.length = 36) : t.rxuBytes = bs := by
  unfold State.rxuBytes State.rxuRead
  rw [hrxu, Config.maxStuffedPacketLenBytes_eq, ← hlen]
  exact Buffer.map_lookup_writeFrom b bs _

section
variable (s : State) {img : List Byte} (himg : img.length = 36)
include himg

theorem State.rxsBytes_receiveImage : (s.receiveImage img).rxsBytes = img :=
  (List.map_congr_left fun k _ =>
    State.rxsRead_congr (s.receiveImage_rxs img) (by simp) k).trans (s.rxsBytes_storeImage img himg)

theorem State.unstuffIntoRxu_storeImage_rxu :
    (s.storeImage img).unstuffIntoRxu.rxu = Buffer.writeFrom s.rxu 0 (unstuffBytes img) := by
  rw [State.unstuffIntoRxu_rxu, State.storeImage_rxu, s.rxsBytes_storeImage img himg]

/-- What `VALIDATE` judges. -/
theorem State.rxuBytes_unstuffIntoRxu_storeImage :
    (s.storeImage img).unstuffIntoRxu.rxuBytes = unstuffBytes img :=
  State.rxuBytes_of_writeFrom (s.unstuffIntoRxu_storeImage_rxu himg) (unstuffBytes_length img)

theorem State.rxuBytes_receiveImage : (s.receiveImage img).rxuBytes = unstuffBytes img :=
  State.rxuBytes_of_writeFrom ((s.receiveImage_rxu img).trans (s.unstuffIntoRxu_storeImage_rxu himg))
    (unstuffBytes_length img)

theorem State.receiveImage_rxuBits : (s.receiveImage img).rxuBits = unstuffCount img := by
  simp [State.receiveImage, s.rxsBytes_storeImage img himg]

theorem State.receiveImage_unstuffer : (s.receiveImage img).unstuffer = unstufferAfter img := by
  simp [State.receiveImage, s.rxsBytes_storeImage img himg]

/-- The verdict on what `RXU` then holds, under the node's filter addresses. -/
theorem State.receiveImage_rxVerdict : (s.receiveImage img).rxVerdict =
    some (validateFrame s.selfAddr s.bcastAddr (unstuffBytes img)) := by
  simp [State.receiveImage, s.rxuBytes_unstuffIntoRxu_storeImage himg]

theorem State.receiveImage_received : (s.receiveImage img).received =
    if validateFrame s.selfAddr s.bcastAddr (unstuffBytes img) = .accept then s.received + 1
    else s.received := by
  simp [State.receiveImage, s.rxuBytes_unstuffIntoRxu_storeImage himg, countUp]

theorem State.receiveImage_missed : (s.receiveImage img).missed =
    if validateFrame s.selfAddr s.bcastAddr (unstuffBytes img) = .accept then s.missed
    else s.missed + 1 := by
  simp [State.receiveImage, s.rxuBytes_unstuffIntoRxu_storeImage himg, countUp]

end

/-- Settles O12: the counter that moves is the one the verdict chooses. -/
theorem frameBoundaryUnstuffsJudgesAndCounts : Obligations.FrameBoundaryUnstuffsJudgesAndCounts := by
  intro s img himg
  refine ⟨fun tail => ?record, s.receiveImage img, exec_evFrameBoundary img s,
    s.rxsBytes_receiveImage himg, s.rxuBytes_receiveImage himg, s.receiveImage_rxuBits himg,
    fun haccept => ?accept, fun hreject => ?reject, s.receiveImage_trace img,
    s.receiveImage_rxState img, s.receiveImage_result img⟩
  case record =>
    have hw : (Instr.evFrameBoundary img).wellFormed = true := beq_iff_eq.mpr himg
    exact decodeOfEncodeIsTheOperation (.evFrameBoundary img) tail hw rfl
  case accept =>
    exact ⟨(s.receiveImage_received himg).trans (if_pos haccept),
      (s.receiveImage_missed himg).trans (if_pos haccept)⟩
  case reject =>
    exact ⟨(s.receiveImage_received himg).trans (if_neg hreject),
      (s.receiveImage_missed himg).trans (if_neg hreject)⟩

/-- Settles O15: each of the elements is a function of the image, the filter addresses and the counters. -/
theorem receptionIgnoresTheTransmitSide : Obligations.ReceptionIgnoresTheTransmitSide := by
  intro s₁ s₂ img himg hself hbcast hreceived hmissed
  refine ⟨s₁.receiveImage img, s₂.receiveImage img, exec_evFrameBoundary img s₁,
    exec_evFrameBoundary img s₂, ?_, ?_, ?_, ?_, ?_, ?_, s₁.receiveImage_rxVerdict himg⟩
  · rw [s₁.receiveImage_received himg, s₂.receiveImage_received himg, hself, hbcast, hreceived]
  · rw [s₁.receiveImage_missed himg, s₂.receiveImage_missed himg, hself, hbcast, hmissed]
  · rw [s₁.rxuBytes_receiveImage himg, s₂.rxuBytes_receiveImage himg]
  · rw [s₁.receiveImage_rxuBits himg, s₂.receiveImage_rxuBits himg]
  · rw [s₁.receiveImage_unstuffer himg, s₂.receiveImage_unstuffer himg]
  · rw [s₁.receiveImage_rxVerdict himg, s₂.receiveImage_rxVerdict himg, hself, hbcast]

/-! From sender to receiver (rules R113, R131, R137; 41_frame_encode.md rule R92 (d)). -/

/-- A legal frame that the filter admits is accepted whatever stands behind it in the array. -/
theorem validateFrame_organicBytes {self bc dest : Word} {p : List Byte} (hp : payloadLegal p = true)
    (hadm : admits self bc dest) (reserve : Byte) (tail : List Byte) :
    validateFrame self bc (organicBytes (encodeFrame dest reserve p) ++ tail) = .accept := by
  obtain ⟨heven, hmax⟩ := (payloadLegal_iff p).1 hp
  have hlen : (lo (settledHeader dest reserve p)).toNat = p.length := by
    rw [lo_settledHeader, BitVec.toNat_ofNat]; omega
  rw [organicBytes_encodeFrame_of_even heven, validateFrame_whole hadm hlen hmax, if_pos rfl]

/-- The payload follows the four bytes of address and header (30_encoding.md rule R56). -/
theorem organicBytes_payload {p : List Byte} (heven : p.length % 2 = 0) (dest : Word) (reserve : Byte)
    (tail : List Byte) :
    ((organicBytes (encodeFrame dest reserve p) ++ tail).drop 4).take p.length = p := by
  simp [organicBytes_encodeFrame_of_even heven]

/-- Byte 3 is the declared length (rule R86). -/
theorem organicBytes_length_byte {p : List Byte} (heven : p.length % 2 = 0) (dest : Word)
    (reserve : Byte) (tail : List Byte) :
    (organicBytes (encodeFrame dest reserve p) ++ tail)[3]? = some (BitVec.ofNat 8 p.length) := by
  simp [organicBytes_encodeFrame_of_even heven, lo_settledHeader]

/-- The bytes on the wire are those of the stuffed frame (20_memory.md rule R41). -/
theorem State.wireBytes_sendFrame {p : List Byte} (hp : payloadLegal p = true) (s : State) (sel : Dest) :
    (s.sendFrame sel p).wireBytes = wordsToBytes (stuffWords (sentFrame s sel p)) := by
  rw [State.wireBytes, State.txsWords_sendFrame_txsLen hp]

theorem State.rxuBytes_getElem? (s : State) {k : Nat} (hk : k < 36) :
    s.rxuBytes[k]? = some (s.rxuRead k) := by
  simp [State.rxuBytes, hk]

/-- Settles O39: the receiver's `RXU` begins with the bytes of the sender's frame, which `VALIDATE`
accepts. -/
theorem sentFramesAreReceived : Obligations.SentFramesAreReceived := by
  intro a b sel p hidle hlegal hff hadm
  have hp := (payloadLegal_iff p).2 hlegal
  obtain ⟨heven, hmax⟩ := hlegal
  refine ⟨a.sendFrame sel p, exec_send_of_legal hidle hp sel, fun tail himg => ?_⟩
  generalize hwire : (a.sendFrame sel p).wireBytes ++ tail = img at himg ⊢
  obtain ⟨zeros, hrxu⟩ : ∃ zeros, unstuffBytes img = organicBytes (sentFrame a sel p) ++ zeros := by
    rw [← hwire, a.wireBytes_sendFrame hp, unstuffBytes_stuffWords]
    exact ⟨_, congrArg (wordsToBytes · ++ _) (scannedWords_encodeFrame hmax hff)⟩
  have haccept : validateFrame b.selfAddr b.bcastAddr (unstuffBytes img) = .accept :=
    hrxu ▸ validateFrame_organicBytes hp hadm a.reserve zeros
  refine ⟨b.receiveImage img, exec_evFrameBoundary img b,
    (b.receiveImage_received himg).trans (if_pos haccept),
    (b.receiveImage_missed himg).trans (if_pos haccept), ?payload, ?length⟩
  case payload =>
    rw [b.rxuBytes_receiveImage himg, hrxu]
    exact organicBytes_payload heven _ _ zeros
  case length =>
    have hbyte := organicBytes_length_byte heven (destinationOf a sel) a.reserve zeros
    rw [← sentFrame, ← hrxu, ← b.rxuBytes_receiveImage himg, State.rxuBytes_getElem? _ (by decide)] at hbyte
    exact Option.some.inj hbyte

end Sys2Proof.Machine
end

section
/-! PROOFS. Runs of operations (spec 45_session_ops.md rule R143): what the counters and outputs account for,
and the frame in flight. Each property is kept by one operation and carried along the run by induction. -/

namespace Sys2Proof.Machine

open Sys2Proof.Claims (flag)

/-! Counters and outputs (rule R143 (a), (b), (c)). -/

/-- From `s` to `t` the counters and the trace account for so many `Ok` results, frame boundaries and
overruns. -/
structure Accounts (s t : State) (oks boundaries overruns : Nat) : Prop where
  /-- A `begin_transmit` is counted in `SENT` or still outstanding. -/
  gate : t.sent + flag t.busy = s.sent + flag s.busy + BitVec.ofNat 32 oks
  /-- A frame boundary is counted in `RECEIVED` or in `MISSED`. -/
  judged : t.received + t.missed = s.received + s.missed + BitVec.ofNat 32 boundaries
  handedOver : t.trace.countP isBeginTransmit = s.trace.countP isBeginTransmit + oks
  completed : t.sent + BitVec.ofNat 32 (s.trace.count .txCursorReset) =
    s.sent + BitVec.ofNat 32 (t.trace.count .txCursorReset)
  rearmed : t.trace.count .rearmReceive = s.trace.count .rearmReceive + boundaries + overruns

/-- An operation that writes none of these elements accounts for nothing. -/
theorem Accounts.of_unchanged {s t : State} (hsent : t.sent = s.sent) (hbusy : t.busy = s.busy)
    (hreceived : t.received = s.received) (hmissed : t.missed = s.missed) (htrace : t.trace = s.trace) :
    Accounts s t 0 0 0 where
  gate := by simp [hsent, hbusy]
  judged := by simp [hreceived, hmissed]
  handedOver := by simp [htrace]
  completed := by rw [hsent, htrace]
  rearmed := by simp [htrace]

/-- Accounts add up. -/
theorem Accounts.trans {s t u : State} {oks oks' boundaries boundaries' overruns overruns' : Nat}
    (h : Accounts s t oks boundaries overruns) (h' : Accounts t u oks' boundaries' overruns') :
    Accounts s u (oks + oks') (boundaries + boundaries') (overruns + overruns') where
  gate := by rw [h'.gate, h.gate, BitVec.ofNat_add, ← BitVec.add_assoc]
  judged := by rw [h'.judged, h.judged, BitVec.ofNat_add, ← BitVec.add_assoc]
  handedOver := by rw [h'.handedOver, h.handedOver, Nat.add_assoc]
  completed := by linear_combination h.completed + h'.completed
  rearmed := by rw [h'.rearmed, h.rearmed]; omega

/-! One operation. -/

/-- A handed-over frame sets the gate. -/
theorem State.sendFrame_accounts {s : State} {p : List Byte} (hb : s.busy = false)
    (hp : payloadLegal p = true) (sel : Dest) : Accounts s (s.sendFrame sel p) 1 0 0 where
  gate := by simp [hb, flag]
  judged := by simp
  handedOver := by simp [s.sendFrame_trace hp, isBeginTransmit]
  completed := by simp [s.sendFrame_trace hp]
  rearmed := by simp [s.sendFrame_trace hp]

/-- A completion moves one from the gate to `SENT`: here the transport's contract is needed. -/
theorem State.completed_accounts {s : State} (hb : s.busy = true) :
    Accounts s (((s.emit .txCursorReset).countSent.clearGate).respond .nothing) 0 0 0 where
  gate := by simp [hb, flag, countUp]
  judged := by simp
  handedOver := by simp [isBeginTransmit]
  completed := by simp [countUp, BitVec.ofNat_add]; ring
  rearmed := by simp

theorem State.receiveImage_accounts (s : State) (img : List Byte) :
    Accounts s (s.receiveImage img) 0 1 0 where
  gate := by simp
  judged := by
    obtain ⟨hup, hkeep⟩ | ⟨hup, hkeep⟩ := s.receiveImage_counters img
    · rw [hup, hkeep]; exact add_right_comm _ _ _
    · rw [hup, hkeep]; exact (add_assoc _ _ _).symm
  handedOver := by simp [isBeginTransmit]
  completed := by simp
  rearmed := by simp

theorem State.overrun_accounts (s : State) : Accounts s (s.leaveReceive.respond .nothing) 0 0 1 where
  gate := by simp
  judged := by simp
  handedOver := by simp [isBeginTransmit]
  completed := by simp
  rearmed := by simp

/-- One operation of a run whose transport honours its contract. -/
theorem exec_accounts {i : Instr} {s t : State} (hreset : i ≠ .reset)
    (hhonours : i = .evTxComplete → s.busy = true) (h : exec i s = .next t) :
    Accounts s t (if t.result = .ok then 1 else 0) (if isFrameBoundary i then 1 else 0)
      (if isOverrun i then 1 else 0) := by
  cases exec_next h with
  | reset => exact absurd rfl hreset
  | sendOk sel p hb hp =>
    rw [State.sendFrame_result]
    exact State.sendFrame_accounts hb hp sel
  | evTxComplete => exact State.completed_accounts (hhonours rfl)
  | evFrameBoundary img =>
    rw [State.receiveImage_result]
    exact s.receiveImage_accounts img
  | evRxOverrun => exact s.overrun_accounts
  | cfgSelf | cfgPeer | cfgBcast | cfgReserve | sendBusy | rd => exact .of_unchanged rfl rfl rfl rfl rfl
  | crc16Update | crc16 | encode | stuff | unstuff | validate => exact .of_unchanged rfl rfl rfl rfl rfl

/-! The run. -/

theorem okCount_cons_of_next {i : Instr} {is : List Instr} {s t : State} (h : exec i s = .next t) :
    okCount (i :: is) s = (if t.result = .ok then 1 else 0) + okCount is t := by
  simp [okCount, h]

theorem execAll_accounts {is : List Instr} {s t : State} (hreset : ∀ i ∈ is, i ≠ .reset)
    (hhonours : transportHonours is s) (h : execAll is s = .next t) :
    Accounts s t (okCount is s) (is.countP isFrameBoundary) (is.countP isOverrun) := by
  induction is generalizing s with
  | nil => cases h; exact .of_unchanged rfl rfl rfl rfl rfl
  | cons i is ih =>
    obtain ⟨hi, his⟩ := List.forall_mem_cons.mp hreset
    obtain ⟨hcontract, hrest⟩ := hhonours
    obtain ⟨u, hfirst, hothers⟩ := execAll_cons_next h
    rw [okCount_cons_of_next hfirst, List.countP_cons, List.countP_cons, Nat.add_comm (List.countP _ _),
      Nat.add_comm (List.countP _ _)]
    exact (exec_accounts hi hcontract hfirst).trans (ih his (hrest u hfirst) hothers)

/-- Settles O51, by what each operation accounts for. -/
theorem countersAccountForTheRun : Obligations.CountersAccountForTheRun := by
  intro is s t hreset hhonours h
  obtain ⟨hgate, hjudged, hhanded, hcompleted, hrearmed⟩ := execAll_accounts hreset hhonours h
  exact ⟨hgate, hjudged, hhanded, hcompleted, hrearmed⟩

/-! The frame in flight (rule R143 (d), (e)). -/

/-- What lies between a `begin_transmit` and its completion: the gate, the transmit buffers, and the number
of `begin_transmit` outputs so far. -/
structure FrameKept (s t : State) : Prop where
  gate : t.busy = true
  txu : t.txu = s.txu
  txs : t.txs = s.txs
  txsLen : t.txsLen = s.txsLen
  handedOver : t.trace.countP isBeginTransmit = s.trace.countP isBeginTransmit

theorem FrameKept.trans {s t u : State} (h : FrameKept s t) (h' : FrameKept t u) : FrameKept s u where
  gate := h'.gate
  txu := h'.txu.trans h.txu
  txs := h'.txs.trans h.txs
  txsLen := h'.txsLen.trans h.txsLen
  handedOver := h'.handedOver.trans h.handedOver

/-- While the gate is set, `SEND` answers `Busy`, and no operation but the two excluded ones writes these
elements. -/
theorem exec_keeps_frame {i : Instr} {s t : State} (hb : s.busy = true) (hreset : i ≠ .reset)
    (hcomplete : i ≠ .evTxComplete) (h : exec i s = .next t) : FrameKept s t := by
  cases exec_next h with
  | reset => exact absurd rfl hreset
  | evTxComplete => exact absurd rfl hcomplete
  | sendOk _ _ hidle => exact absurd (hb.symm.trans hidle) (by decide)
  | evFrameBoundary img =>
    exact ⟨(s.receiveImage_busy img).trans hb, s.receiveImage_txu img, s.receiveImage_txs img,
      s.receiveImage_txsLen img, by simp [isBeginTransmit]⟩
  | evRxOverrun => exact ⟨hb, rfl, rfl, rfl, by simp [isBeginTransmit]⟩
  | cfgSelf | cfgPeer | cfgBcast | cfgReserve | sendBusy | rd => exact ⟨hb, rfl, rfl, rfl, rfl⟩
  | crc16Update | crc16 | encode | stuff | unstuff | validate => exact ⟨hb, rfl, rfl, rfl, rfl⟩

theorem execAll_keeps_frame {is : List Instr} {s t : State} (hb : s.busy = true)
    (his : ∀ i ∈ is, i ≠ .reset ∧ i ≠ .evTxComplete) (h : execAll is s = .next t) : FrameKept s t := by
  induction is generalizing s with
  | nil => cases h; exact ⟨hb, rfl, rfl, rfl, rfl⟩
  | cons i is ih =>
    obtain ⟨⟨hreset, hcomplete⟩, hrest⟩ := List.forall_mem_cons.mp his
    obtain ⟨u, hfirst, hothers⟩ := execAll_cons_next h
    have hkept := exec_keeps_frame hb hreset hcomplete hfirst
    exact hkept.trans (ih hkept.gate hrest hothers)

/-- Settles O52, by what each operation keeps of the frame in flight. -/
theorem frameInFlightIsUntouched : Obligations.FrameInFlightIsUntouched := by
  intro is s t hb his h
  obtain ⟨hgate, htxu, htxs, hlen, hhanded⟩ := execAll_keeps_frame hb his h
  exact ⟨hgate, htxu, htxs, hlen, hhanded⟩

end Sys2Proof.Machine
end

section
/-! PROOFS. The schedule and its agents (spec 60_exceptions.md): the receive events commute and `SEND` races
the completion (rule R155); an agent's record runs if and only if it is of the agent's class (rule R159). -/

namespace Sys2Proof.Machine

open Sys2Proof.Claims (reservedByte classOf)

/-! A frame boundary and an overrun in either order (rule R155). -/

/-- What `EV_RX_OVERRUN` does to the state, and what `EV_FRAME_BOUNDARY` ends with. -/
def State.rearm (s : State) : State := s.leaveReceive.respond .nothing

theorem exec_evRxOverrun (s : State) : exec .evRxOverrun s = .next s.rearm := execEvRxOverrun_eq s

theorem State.receiveImage_eq_rearm (s : State) (img : List Byte) :
    s.receiveImage img = (s.storeImage img).unstuffIntoRxu.judge.countVerdict.rearm := rfl

/-! The trace, `RX_STATE` and the result are read by nothing that is done to an image. -/

theorem State.storeImage_rearm (s : State) (img : List Byte) :
    s.rearm.storeImage img = (s.storeImage img).rearm := rfl

theorem State.rxsBytes_rearm (s : State) : s.rearm.rxsBytes = s.rxsBytes := rfl

theorem State.rxuBytes_rearm (s : State) : s.rearm.rxuBytes = s.rxuBytes := rfl

theorem State.unstuffIntoRxu_rearm (s : State) : s.rearm.unstuffIntoRxu = s.unstuffIntoRxu.rearm := by
  rw [State.unstuffIntoRxu, State.rxsBytes_rearm]
  dsimp only [State.unstuffIntoRxu, State.rearm, State.leaveReceive, State.emit, State.respond]

theorem State.judge_rearm (s : State) : s.rearm.judge = s.judge.rearm := by
  rw [State.judge, State.rxuBytes_rearm]
  dsimp only [State.judge, State.rearm, State.leaveReceive, State.emit, State.respond]

theorem State.countVerdict_rearm (s : State) : s.rearm.countVerdict = s.countVerdict.rearm := by
  have hverdict : s.rearm.rxVerdict = s.rxVerdict := rfl
  unfold State.countVerdict
  rw [hverdict]
  split <;> rfl

theorem State.receiveImage_rearm (s : State) (img : List Byte) :
    s.rearm.receiveImage img = (s.receiveImage img).rearm := by
  rw [State.receiveImage_eq_rearm, State.receiveImage_eq_rearm, State.storeImage_rearm,
    State.unstuffIntoRxu_rearm, State.judge_rearm, State.countVerdict_rearm]

/-! `SEND` and the completion in either order (rules R132, R135, R155). -/

theorem exec_evTxComplete (s : State) : exec .evTxComplete s =
    .next ((((s.emit .txCursorReset).countSent).clearGate).respond .nothing) := rfl

/-- Settles O16: the overrun's update passes through the frame boundary's, and the completion clears the
gate that `SEND` tests. -/
theorem receiveEventsCommuteAndSendRacesCompletion :
    Obligations.ReceiveEventsCommuteAndSendRacesCompletion := by
  refine ⟨fun s img => ?commute, fun s sel p hb hlegal => ⟨?behind, ?before⟩⟩
  case commute =>
    rw [execAll_cons_of_next (exec_evFrameBoundary img s), execAll_cons_of_next (exec_evRxOverrun s),
      execAll_singleton, execAll_singleton, exec_evRxOverrun, exec_evFrameBoundary,
      State.receiveImage_rearm]
  case behind =>
    rw [execAll_cons_of_next (exec_evTxComplete s), execAll_singleton,
      exec_send_of_legal (by simp) ((payloadLegal_iff p).2 hlegal)]
    exact ⟨_, rfl, State.sendFrame_result _ sel p, State.sendFrame_busy _ sel p⟩
  case before =>
    exact ⟨_, _, exec_send_of_busy hb sel p, s.respond_result .busy, exec_evTxComplete _, by simp⟩

/-! The class of a record (rule R159; 30_encoding.md rules R67, R68). -/

theorem reservedByte_event {index : BitVec 3} (h : 3 ≤ index.toNat) :
    reservedByte (0b00001#5 ++ index) := by revert index; decide

theorem reservedByte_micro (low : BitVec 1) : reservedByte (0b0001011#7 ++ low) := by revert low; decide

theorem reservedByte_class11 (index : BitVec 3) : reservedByte (0b00011#5 ++ index) := by
  revert index; decide

/-- Bits 4:3 of the operation byte are the class of the agent that the operation belongs to: the rows that
belong to no agent have a reserved byte. -/
theorem decode_opByte_class {op : Byte} {bs tail : List Byte} {i : Instr}
    (hd : decode (op :: bs) = .ok (i, tail)) (hop : ¬ reservedByte op) :
    ∃ owner, issuerOf i = some owner ∧ (op.extractLsb' 3 2).toNat = classOf owner := by
  obtain ⟨hw, hf, hbytes⟩ := encodeOfDecodeIsTheRecord _ _ _ hd
  cases i with
  | reset | cfgSelf | cfgPeer | cfgBcast | cfgReserve | send | rd =>
    cases hbytes; exact ⟨.producer, rfl, rfl⟩
  | evTxComplete | evFrameBoundary | evRxOverrun => cases hbytes; exact ⟨.transport, rfl, rfl⟩
  | crc16Update | crc16 | encode | stuff | unstuff | validate =>
    cases hbytes; exact ⟨.direct, rfl, rfl⟩
  | reserved07 => cases hbytes; exact absurd (by decide) hop
  | reserved0B0F => cases hbytes; exact absurd (reservedByte_event (of_decide_eq_true hw)) hop
  | reserved1617 low => cases hbytes; exact absurd (reservedByte_micro low) hop
  | reservedClass11 index => cases hbytes; exact absurd (reservedByte_class11 index) hop
  | reservedHighBits => cases hbytes; exact absurd (.inl (of_decide_eq_true hw)) hop
  | wAddress | wHeader | wPayload | wChecksum | wTerminator => cases hf

theorem classOf_injective : Function.Injective classOf := by
  intro a b h
  cases a <;> cases b <;> cases h <;> rfl

/-- An operation that has an agent may be issued by that agent alone. -/
theorem mayIssue_iff {i : Instr} {owner : Agent} (h : issuerOf i = some owner) (a : Agent) :
    mayIssue a i = true ↔ owner = a := by
  simp [mayIssue, h]

/-- A record that its agent may not issue is refused. -/
theorem step_of_wrongAgent {s : State} {a : Agent} {bs tail : List Byte} {i : Instr} {rest : List Input}
    (hp : s.pending = .record a bs :: rest) (hd : decode bs = .ok (i, tail))
    (ha : ¬ mayIssue a i = true) : step s = .refused (.wrongAgent a) := by
  simp [step, fetch, hp, hd, ha]

/-- Settles O47: the class of the operation byte tells whether the agent may issue the record. -/
theorem agentsIssueOnlyTheirClass : Obligations.AgentsIssueOnlyTheirClass := by
  intro s a op bs tail i rest hp hd hop
  obtain ⟨owner, howner, hclass⟩ := decode_opByte_class hd hop
  have hissue : mayIssue a i = true ↔ (op.extractLsb' 3 2).toNat = classOf a := by
    rw [mayIssue_iff howner, hclass, classOf_injective.eq_iff]
  exact ⟨fun hother => step_of_wrongAgent hp hd (mt hissue.mp hother),
    fun hown => step_of_fetch_run (fetch_of_pending_record hp hd (hissue.mpr hown))⟩

end Sys2Proof.Machine
end

section
/-! PROOFS. Power-up and the organic terminator (spec 70_reset_and_hazards.md rules R165, R173): what `STUFF`
reads of a frame ends at its first `FFFF` word, wherever that word comes from. -/

namespace Sys2Proof.Machine

open Sys2Proof.Claims (sentFrame destinationOf)

/-- A sentinel word cuts what is stuffed to the words before it (42_bit_stuffer.md rule R99). -/
theorem stuffWords_eq_take {u : List Word} {n : Nat} (h : u[n]? = some 0xFFFF#16) :
    stuffWords u = stuffWords (u.take n) := by
  obtain ⟨hn, hw⟩ := List.getElem?_eq_some_iff.mp h
  have hsplit : u = u.take n ++ 0xFFFF#16 :: u.drop (n + 1) := by
    rw [← hw, List.getElem_cons_drop, List.take_append_drop]
  apply stuffWords_congr
  calc scannedWords u = scannedWords (u.take n ++ 0xFFFF#16 :: u.drop (n + 1)) := congrArg _ hsplit
    _ = scannedWords (u.take n) := scannedWords_append_sentinel _ _

/-- Of no words at all, `STUFF` makes the terminator (42_bit_stuffer.md rule R101). -/
theorem stuffWords_nil : stuffWords [] = [0xFFFF#16] := rfl

/-! The words of a frame by their index (30_encoding.md rule R56). -/

theorem sentFrame_getElem?_zero (s : State) (sel : Dest) (p : List Byte) :
    (sentFrame s sel p)[0]? = some (destinationOf s sel) := rfl

/-- Bytes `2 k` and `2 k + 1` of the payload are word `2 + k` of the frame (rule R87). -/
theorem encodeFrame_getElem?_payload {p : List Byte} {k : Nat} {h l : Byte} (hh : p[2 * k]? = some h)
    (hl : p[2 * k + 1]? = some l) (dest : Word) (reserve : Byte) :
    (encodeFrame dest reserve p)[2 + k]? = some (cat h l) := by
  obtain ⟨hlt, -⟩ := List.getElem?_eq_some_iff.mp hl
  have hk : k < p.length / 2 := by omega
  have hskip : (encodeFrame dest reserve p)[2 + k]? = (wordsOfBytes p)[k]? := by
    rw [encodeFrame, Nat.add_comm, List.cons_append, List.cons_append, List.getElem?_cons_succ,
      List.getElem?_cons_succ, List.getElem?_append_left (by rwa [wordsOfBytes_length])]
  rw [hskip, wordsOfBytes_getElem? p k hk, List.getD_eq_getElem?_getD, List.getD_eq_getElem?_getD,
    hh, hl, Option.getD_some, Option.getD_some]

/-- Settles O9: `TXS` holds the stuffed frame, and a sentinel at word 0 or at word `2 + k` cuts it there. -/
theorem organicTerminatorTruncatesTheFrame : Obligations.OrganicTerminatorTruncatesTheFrame := by
  intro s sel p hb hlegal
  have hp := (payloadLegal_iff p).2 hlegal
  refine ⟨s.sendFrame sel p, exec_send_of_legal hb hp sel, s.sendFrame_result sel p, fun hdest => ?dest,
    fun k hhigh hlow => ?payload⟩
  case dest =>
    have hword : (sentFrame s sel p)[0]? = some 0xFFFF#16 :=
      (sentFrame_getElem?_zero s sel p).trans (congrArg some hdest)
    rw [State.txsWords_sendFrame_txsLen hp, stuffWords_eq_take hword, List.take_zero, stuffWords_nil]
  case payload =>
    have hword : (sentFrame s sel p)[2 + k]? = some 0xFFFF#16 :=
      encodeFrame_getElem?_payload hhigh hlow (destinationOf s sel) s.reserve
    rw [State.txsWords_sendFrame_txsLen hp, stuffWords_eq_take hword]

/-- Settles O2: the power-up state holds each of these values. -/
theorem powerUpIsIdleWithCountersClear : Obligations.PowerUpIsIdleWithCountersClear :=
  ⟨rfl, rfl, rfl, rfl, rfl, rfl, rfl, rfl, rfl, rfl, rfl, rfl⟩

end Sys2Proof.Machine
end
